-- ==== Sys2Proof/Word.lean ====
section
/-! DEFINITION. The widths of spec/00_scope.md rule R5, one abbreviation each. The spec fixes every one of them ("a
model must take these values, not parameters"), so each is a bit vector of a fixed width: no value can leave its range
(rules R7, R10). Bit `i` of a value is `BitVec.getLsbD _ i`; bit 0 is the least significant (rule R8). -/

namespace Sys2Proof

/-- One byte of a byte-wide channel (R68). -/
abbrev Byte := BitVec 8

/-- HALF_W: a half-block, an S-box entry, a slot of a 60-bit word (R5). -/
abbrev Half := BitVec 5

/-- A 4-bit group of the tweak (R142). -/
abbrev Nibble := BitVec 4

/-- BLOCK_W: a plaintext, a ciphertext, a round state (R5). -/
abbrev Block := BitVec 10

/-- TWEAK_W (R5). -/
abbrev Tweak := BitVec 48

/-- KEYWORD_W and T_W: a master-key word, a word of the schedule, a 60-bit operand (R5). -/
abbrev Word60 := BitVec 60

/-- RK_W: a round key (R5). -/
abbrev RoundKey := BitVec 30

/-- SK0_W: the low part of a round key (R5, R125). -/
abbrev SubKey := BitVec 25

/-- The `op` field of a request (R61). -/
abbrev Selector := BitVec 4

/-- The `r` field of a request: a rotation amount as the host sends it (R61). -/
abbrev Amount := BitVec 6

/-- The packed request word (R67). -/
abbrev RequestWord := BitVec 398

/-- The packed response word (R69). -/
abbrev ResponseWord := BitVec 303

end Sys2Proof
end

