-- ==== Sys2Proof/Config.lean ====
section
/-! DEFINITION. What a build of the core fixes: the open parameters of spec/00_scope.md rule R6 and the build option of
spec/30_encoding.md rule R64. The spec gives none of their values ("a model takes each as an argument"), so the machine's
own values are constants without a body: no proof can see one, and a claim about the machine after reset holds for every
build the spec allows. The types `SboxRom`, `PermRom` and `Build` are plain data; `State` holds a value of each, so that
the step is a function of them and a test can run under the spec's test instances I0 and I1 (95_test_vectors.md). -/

namespace Sys2Proof

/-- The S-box ROM: 32 entries of 5 bits, indexed 0..31; entry `i` is the S-box output for input `i` (R24). -/
abbrev SboxRom := Vector Half 32

/-- The permutation ROM: 60 entries, each a bit position in 0..59; entry `i` is the output position that input bit `i`
moves to (R25). An entry is stored in 6 bits, and 60..63 never occur (R45), so it is a `Fin 60`. -/
abbrev PermRom := Vector (Fin 60) 60

/-- R101: two different indices hold two different entries. With 32 indices and 32 values this is the bijectivity that
R6 asks of `SBOX`. -/
abbrev SboxRom.Bijective (t : SboxRom) : Prop := ∀ a b : Fin 32, t[a] = t[b] → a = b

/-- R25: two different indices hold two different positions; with 60 of each this is the bijectivity that R6 asks of
`PERM`. -/
abbrev PermRom.Bijective (t : PermRom) : Prop := ∀ a b : Fin 60, t[a] = t[b] → a = b

/-- `EXPAND_ORDER`: the nibble-to-slot order of expand (R6, R143). `preserve` is the spec's default (D11). -/
inductive ExpandOrder where
  | preserve
  | reverse
  deriving DecidableEq, Repr, Inhabited

/-- The build-time parameters other than the two tables (R6, R64). None of them is a register (R23). -/
structure Build where
  /-- `EXPAND_ORDER` (R6). -/
  expandOrder : ExpandOrder
  /-- `LATENCY`, one number of cycles for each `op`: it may depend on `op` and on nothing else (R225). -/
  latency : Vector Nat 16
  /-- `MAX_OUTSTANDING`, the places of the pending queue (R6, R31). -/
  maxOutstanding : Nat
  /-- Whether the build has the test-view operations `op` 0x1..0xB (R64, D20). -/
  testView : Bool
  deriving DecidableEq, Repr

/-- R6: `MAX_OUTSTANDING` is at least 1. -/
abbrev Build.Legal (b : Build) : Prop := 1 ≤ b.maxOutstanding

/-- `SBOX` of the hardware: a bijection on the 5-bit values, and nothing else is known of it (R6, D9, N1). -/
opaque Config.sbox : Equiv.Perm Half

/-- `PERM` of the hardware: a bijection on 0..59, and nothing else is known of it (R6, D10, N2). -/
opaque Config.perm : Equiv.Perm (Fin 60)

/-- `EXPAND_ORDER` of the hardware (R6, D11, N5), left free (DESIGN CHOICE, log entry 4; safe). -/
opaque Config.expandOrder : ExpandOrder

/-- `LATENCY` of the hardware, by `op` (R6, R225, D13). -/
opaque Config.latency : Selector → Nat

/-- `MAX_OUTSTANDING` of the hardware, at least 1 by its type (R6, D13). -/
opaque Config.maxOutstanding : ℕ+

/-- Whether the hardware has the test view (R64, D20), left free (DEDUCED, log entry 3; safe). -/
opaque Config.testView : Bool

/-- The S-box ROM of the hardware, written out as a table (R24). -/
def Config.sboxRom : SboxRom := Vector.ofFn fun i => Config.sbox (BitVec.ofFin i)

/-- The permutation ROM of the hardware, written out as a table (R25). -/
def Config.permRom : PermRom := Vector.ofFn fun i => Config.perm i

/-- The other parameters of the hardware (R6, R64). -/
def Config.build : Build where
  expandOrder := Config.expandOrder
  latency := Vector.ofFn fun i => Config.latency (BitVec.ofFin i)
  maxOutstanding := Config.maxOutstanding
  testView := Config.testView

end Sys2Proof
end

