-- ==== Sys2Proof/Syntax.lean ====
section
/-! DEFINITION. The syntax of the interface: a request with all its fields (spec/30_encoding.md rule R61) and the
instruction it stands for, one constructor for each of the 13 rows of spec/opcode_table.json. -/

namespace Sys2Proof

/-- One request. Every field is present in every request (R61); an operation reads only the fields R62 lists for it. -/
structure Request where
  /-- Operation selector. -/
  op : Selector
  /-- Plaintext block (ENCRYPT). -/
  pt : Block
  /-- Tweak (ENCRYPT, SCHEDULE, EXPAND). -/
  tweak : Tweak
  /-- Master-key word 0 (ENCRYPT, SCHEDULE). -/
  k0 : Word60
  /-- Master-key word 1. -/
  k1 : Word60
  /-- Master-key word 2. -/
  k2 : Word60
  /-- Master-key word 3. -/
  k3 : Word60
  /-- Primitive operand (the test-view operations). -/
  x : Word60
  /-- Primitive key operand (G, ROUND, ROUND.F). -/
  key : RoundKey
  /-- Rotation amount (ROT5, ROT60). -/
  r : Amount
  deriving DecidableEq, Repr

/-- The operations (R64), each with the request fields it reads (R62), whole: the narrow reads of R66 are the meanings'
own (Machine/Operands.lean). -/
inductive Instr where
  /-- ENCRYPT, `op` 0x0 (R170). -/
  | encrypt (pt : Block) (tweak : Tweak) (k0 k1 k2 k3 : Word60)
  /-- SCHEDULE, `op` 0x1 (R152). -/
  | schedule (tweak : Tweak) (k0 k1 k2 k3 : Word60)
  /-- ROUND, `op` 0x2 (R127). -/
  | round (x : Word60) (key : RoundKey)
  /-- ROUND.F, `op` 0x3 (R128). -/
  | roundF (x : Word60) (key : RoundKey)
  /-- G, `op` 0x4 (R121). -/
  | g (x : Word60) (key : RoundKey)
  /-- SBOX, `op` 0x5 (R100). -/
  | sbox (x : Word60)
  /-- ROT5, `op` 0x6 (R105). -/
  | rot5 (x : Word60) (r : Amount)
  /-- ROT60, `op` 0x7 (R110). -/
  | rot60 (x : Word60) (r : Amount)
  /-- EXPAND, `op` 0x8 (R143). -/
  | expand (tweak : Tweak)
  /-- SUBWORDS, `op` 0x9 (R144). -/
  | subwords (x : Word60)
  /-- SIGMA, `op` 0xA (R145). -/
  | sigma (x : Word60)
  /-- PERMBITS, `op` 0xB (R146). -/
  | permbits (x : Word60)
  /-- The reserved selectors `op` 0xC..0xF (R65); `op` is kept because four selectors share the row. -/
  | reserved (op : Selector)
  deriving DecidableEq, Repr

end Sys2Proof
end

