-- ==== Sys2Proof/WellFormed.lean ====
section
/-! DEFINITION. Which terms the spec knows. An instruction is ill-formed only where a term of `Instr` has no request
that stands for it; a build is ill-formed where spec/00_scope.md rule R6 puts it outside the spec. -/

namespace Sys2Proof

/-- Every combination of operand bits is accepted (R70), an out-of-range rotation amount included (it is answered by
`Err`, R202); only a `reserved` term whose selector is not one of 0xC..0xF stands for no request (R65). -/
def Instr.wellFormed (i : Instr) : Bool :=
  match i with
  | .encrypt _ _ _ _ _ _ => true
  | .schedule _ _ _ _ _ => true
  | .round _ _ => true
  | .roundF _ _ => true
  | .g _ _ => true
  | .sbox _ => true
  | .rot5 _ _ => true
  | .rot60 _ _ => true
  | .expand _ => true
  | .subwords _ => true
  | .sigma _ => true
  | .permbits _ => true
  | .reserved op => decide (12 ≤ op.toNat)

/-- R6: the parameters a model may be instantiated with. -/
abbrev WellFormedBuild (sbox : SboxRom) (perm : PermRom) (b : Build) : Prop :=
  sbox.Bijective ∧ perm.Bijective ∧ b.Legal

end Sys2Proof
end

