-- ==== Sys2Proof/Decode.lean ====
section
/-! DEFINITION. From bits to an instruction, and back: the packed request word (spec/30_encoding.md rule R67), its byte
serialisation (R68), the selector (R64, R65) and the fields each operation reads (R62). Decoding a request is total
(R70); the one thing the byte decoder can reject, by name, is a channel that has not yet carried 50 bytes. -/

namespace Sys2Proof

/-- The packed request word `req = [r, key, x, k3, k2, k1, k0, tweak, pt, op]`, most significant field first (R67). -/
def Request.pack (q : Request) : RequestWord :=
  q.r ++ q.key ++ q.x ++ q.k3 ++ q.k2 ++ q.k1 ++ q.k0 ++ q.tweak ++ q.pt ++ q.op

/-- The fields of a packed request word, at the bit positions of R67's table. -/
def Request.unpack (w : RequestWord) : Request where
  op := w.extractLsb' 0 4
  pt := w.extractLsb' 4 10
  tweak := w.extractLsb' 14 48
  k0 := w.extractLsb' 62 60
  k1 := w.extractLsb' 122 60
  k2 := w.extractLsb' 182 60
  k3 := w.extractLsb' 242 60
  x := w.extractLsb' 302 60
  key := w.extractLsb' 362 30
  r := w.extractLsb' 392 6

/-- A request whose fields are all 0 but for `op`. -/
def Request.ofSelector (op : Selector) : Request where
  op := op
  pt := 0
  tweak := 0
  k0 := 0
  k1 := 0
  k2 := 0
  k3 := 0
  x := 0
  key := 0
  r := 0

/-- The selector row (R64, R65), then the fields that row's operation reads (R62). The selector alone fixes the
operation (R70). -/
def decodeRequest (q : Request) : Instr :=
  match q.op.toNat with
  | 0x0 => .encrypt q.pt q.tweak q.k0 q.k1 q.k2 q.k3
  | 0x1 => .schedule q.tweak q.k0 q.k1 q.k2 q.k3
  | 0x2 => .round q.x q.key
  | 0x3 => .roundF q.x q.key
  | 0x4 => .g q.x q.key
  | 0x5 => .sbox q.x
  | 0x6 => .rot5 q.x q.r
  | 0x7 => .rot60 q.x q.r
  | 0x8 => .expand q.tweak
  | 0x9 => .subwords q.x
  | 0xA => .sigma q.x
  | 0xB => .permbits q.x
  | _ => .reserved q.op

/-- Decoding a packed request word (R67, R70). -/
def decodeWord (w : RequestWord) : Instr := decodeRequest (Request.unpack w)

/-- Bytes of a request on a byte-wide channel (R68). -/
def requestBytes : Nat := 50

/-- The 50 bytes of a request, byte 0 first: byte `b` holds bits `8b+7 .. 8b`; bits 398 and 399 of the last byte are 0
(R68). -/
def wordToBytes (w : RequestWord) : List Byte := (List.range requestBytes).map fun b => w.extractLsb' (8 * b) 8

/-- The number whose byte `b` is the `b`-th of the list, byte 0 first (R68). -/
def bytesToNat : List Byte → Nat
  | [] => 0
  | b :: bs => b.toNat + 256 * bytesToNat bs

/-- The request word of 50 bytes; bits 398 and 399 are ignored (R68). -/
def bytesToWord (bs : List Byte) : RequestWord := BitVec.ofNat 398 (bytesToNat bs)

/-- Why the byte decoder gives no request. -/
inductive DecodeError where
  /-- Fewer than 50 bytes have arrived: this is not a request yet (R68, R71). Safe: nothing is decoded. -/
  | incompleteRequest (have_ : Nat)
  deriving DecidableEq, Repr

/-- The request at the head of a byte stream, and the rest of the stream. Every request has one length, so no length
rule is needed (R71). -/
def decodeBytes (bs : List Byte) : Except DecodeError (Instr × List Byte) :=
  if bs.length < requestBytes then .error (.incompleteRequest bs.length)
  else .ok (decodeWord (bytesToWord (bs.take requestBytes)), bs.drop requestBytes)

/-- What the decoder reads from an instruction whose low `nbits` bits are those of `w` and whose other bits are 0: the
word is laid out in its 50 bytes (R68) and given to the byte decoder. -/
def decodeTableWord (nbits w : Nat) : Option Instr :=
  match decodeBytes (wordToBytes (BitVec.ofNat 398 (w % 2 ^ nbits))) with
  | .ok (i, _) => some i
  | .error _ => none

/-- The selector of an instruction (R64, R65). -/
def Instr.selector (i : Instr) : Selector :=
  match i with
  | .encrypt _ _ _ _ _ _ => 0x0
  | .schedule _ _ _ _ _ => 0x1
  | .round _ _ => 0x2
  | .roundF _ _ => 0x3
  | .g _ _ => 0x4
  | .sbox _ => 0x5
  | .rot5 _ _ => 0x6
  | .rot60 _ _ => 0x7
  | .expand _ => 0x8
  | .subwords _ => 0x9
  | .sigma _ => 0xA
  | .permbits _ => 0xB
  | .reserved op => op

/-- A request for an instruction: its selector, the fields it reads, and 0 in every field it does not read. -/
def encodeRequest (i : Instr) : Request :=
  match i with
  | .encrypt pt tweak k0 k1 k2 k3 =>
    { Request.ofSelector 0x0 with pt := pt, tweak := tweak, k0 := k0, k1 := k1, k2 := k2, k3 := k3 }
  | .schedule tweak k0 k1 k2 k3 =>
    { Request.ofSelector 0x1 with tweak := tweak, k0 := k0, k1 := k1, k2 := k2, k3 := k3 }
  | .round x key => { Request.ofSelector 0x2 with x := x, key := key }
  | .roundF x key => { Request.ofSelector 0x3 with x := x, key := key }
  | .g x key => { Request.ofSelector 0x4 with x := x, key := key }
  | .sbox x => { Request.ofSelector 0x5 with x := x }
  | .rot5 x r => { Request.ofSelector 0x6 with x := x, r := r }
  | .rot60 x r => { Request.ofSelector 0x7 with x := x, r := r }
  | .expand tweak => { Request.ofSelector 0x8 with tweak := tweak }
  | .subwords x => { Request.ofSelector 0x9 with x := x }
  | .sigma x => { Request.ofSelector 0xA with x := x }
  | .permbits x => { Request.ofSelector 0xB with x := x }
  | .reserved op => Request.ofSelector op

/-- The packed request word of an instruction (R67). -/
def encodeWord (i : Instr) : RequestWord := (encodeRequest i).pack

/-- The 50 bytes of an instruction (R68). -/
def encodeBytes (i : Instr) : List Byte := wordToBytes (encodeWord i)

/-- The opcode table as a list of rows: mnemonic, match, mask (R64, R65, R71). -/
def opcodeRows : List (String × Selector × Selector) :=
  [("ENCRYPT", 0x0, 0xF), ("SCHEDULE", 0x1, 0xF), ("ROUND", 0x2, 0xF), ("ROUND.F", 0x3, 0xF), ("G", 0x4, 0xF),
    ("SBOX", 0x5, 0xF), ("ROT5", 0x6, 0xF), ("ROT60", 0x7, 0xF), ("EXPAND", 0x8, 0xF), ("SUBWORDS", 0x9, 0xF),
    ("SIGMA", 0xA, 0xF), ("PERMBITS", 0xB, 0xF), ("RESERVED", 0xC, 0xC)]

/-- The mnemonics of the rows whose match and mask a selector meets (R71). -/
def rowsOf (op : Selector) : List String :=
  (opcodeRows.filter fun row => op &&& row.2.2 == row.2.1).map fun row => row.1

/-- The mnemonic of an instruction, as the opcode table spells it (R64, R65). -/
def Instr.mnemonic (i : Instr) : String :=
  match i with
  | .encrypt _ _ _ _ _ _ => "ENCRYPT"
  | .schedule _ _ _ _ _ => "SCHEDULE"
  | .round _ _ => "ROUND"
  | .roundF _ _ => "ROUND.F"
  | .g _ _ => "G"
  | .sbox _ => "SBOX"
  | .rot5 _ _ => "ROT5"
  | .rot60 _ _ => "ROT60"
  | .expand _ => "EXPAND"
  | .subwords _ => "SUBWORDS"
  | .sigma _ => "SIGMA"
  | .permbits _ => "PERMBITS"
  | .reserved _ => "RESERVED"

end Sys2Proof
end

