-- ==== Sys2Proof/Machine/Response.lean ====
section
/-! DEFINITION. The response of a transaction (spec/30_encoding.md rule R63) and its packed form (R69, R68). -/

namespace Sys2Proof.Machine

/-- The eight round keys of one encryption (spec/42_schedule.md rule R151). -/
structure RoundKeys where
  rk0 : RoundKey
  rk1 : RoundKey
  rk2 : RoundKey
  rk3 : RoundKey
  rk4 : RoundKey
  rk5 : RoundKey
  rk6 : RoundKey
  rk7 : RoundKey
  deriving DecidableEq, Repr

/-- The `y` of an `Ok1` response, at the result width R62 gives the operation. -/
inductive Result where
  | w5 (y : Half)
  | w10 (y : Block)
  | w60 (y : Word60)
  deriving DecidableEq, Repr

/-- The causes of an `Err` response (R202). No other condition raises one. -/
inductive ErrCause where
  /-- Code 1: a selector 0xC..0xF, or 0x1..0xB in a build without the test view. -/
  | reservedOp
  /-- Code 2: ROT5 with `r >= 5`, ROT60 with `r >= 60`. -/
  | rotRange
  deriving DecidableEq, Repr

/-- A response has one of three kinds, each with only its own fields (R63). -/
inductive Response where
  /-- Every operation except SCHEDULE, when there is no error. -/
  | ok1 (y : Result)
  /-- SCHEDULE. -/
  | okRk (rk : RoundKeys)
  /-- The error response (R201, R202). -/
  | err (cause : ErrCause)
  deriving DecidableEq, Repr

/-- A response as it left the core, with the latency of its transaction in cycles: the parameter `LATENCY` for its `op`
(spec/70_reset_and_hazards.md rule R225). -/
structure Delivery where
  resp : Response
  latency : Nat
  deriving DecidableEq, Repr

/-- `y` zero-extended from its result width to 60 bits (R69). -/
def Result.extended (y : Result) : Word60 :=
  match y with
  | .w5 v => v.setWidth 60
  | .w10 v => v.setWidth 60
  | .w60 v => v

/-- The field `y` of a response that has one; a response kind that lacks it gives no value (R63). -/
def Response.y? (p : Response) : Option Result :=
  match p with
  | .ok1 y => some y
  | .okRk _ => none
  | .err _ => none

/-- The fields `rk0` .. `rk7` of a response that has them (R63). -/
def Response.rk? (p : Response) : Option RoundKeys :=
  match p with
  | .ok1 _ => none
  | .okRk rk => some rk
  | .err _ => none

/-- The field `cause` of a response that has one (R63). -/
def Response.cause? (p : Response) : Option ErrCause :=
  match p with
  | .ok1 _ => none
  | .okRk _ => none
  | .err cause => some cause

/-- The eight round keys side by side, `rk0` lowest, as R69 packs them. -/
def RoundKeys.pack (k : RoundKeys) : BitVec 240 :=
  k.rk7 ++ k.rk6 ++ k.rk5 ++ k.rk4 ++ k.rk3 ++ k.rk2 ++ k.rk1 ++ k.rk0

end Sys2Proof.Machine
end

