-- ==== Sys2Proof/Machine/State.lean ====
section
/-! DEFINITION. The state of the core and of its interface (spec/10_state.md). The core has no register, no program
counter, no flag, no control register (R20 to R23) and no data memory (R40); the transient values of R27 exist inside one
atomic step only and are the named values of the functions that compute them. What is left is the two ROMs, the build's
parameters, the reset input and the pending queue; the model adds the host's side of the interface. -/

namespace Sys2Proof.Machine

/-- What may move next (R30: the host and the core are the only agents). The model's own type: a list of moves in the
state is the interleaving of the two agents, so that every interleaving the spec allows is some list (DESIGN CHOICE, log entry 6; safe). -/
inductive Move where
  /-- The host presents a request; it is held until the core accepts it (R227, R230). -/
  | send (q : Request)
  /-- The host asserts the reset input (R220, R227). -/
  | assertReset
  /-- The host deasserts the reset input (R220; where it is not asserted: DESIGN CHOICE, log entry 22). -/
  | deassertReset
  /-- Power-on, which acts as a reset (R220; it leaves the reset input alone: DESIGN CHOICE, log entry 11). -/
  | powerOn
  /-- The core wakes after its clock or power was gated: it behaves as after reset (R214; DESIGN CHOICE, log entry 11). -/
  | wake
  /-- The interface accepts the oldest request the host presents, if it can (R31, R230). -/
  | accept
  /-- The core turns the head of the pending queue into its response, if there is one (R30, R31). -/
  | respond
  deriving DecidableEq, Repr

/-- The state. `sbox`, `perm`, `build`, `resetIn` and `pending` are the spec's; `offered`, `moves` and `delivered` are the
model's own, the host's side of the interface (DESIGN CHOICE, log entry 5). -/
structure State where
  /-- The S-box ROM (R24). Nothing writes it. -/
  sbox : SboxRom
  /-- The permutation ROM (R25). Nothing writes it. -/
  perm : PermRom
  /-- The build-time parameters (R6, R64). Nothing writes them. -/
  build : Build
  /-- The reset input: whether it is asserted (R220). -/
  resetIn : Bool
  /-- The pending queue: requests accepted and not yet answered, oldest first (R31). -/
  pending : List Request
  /-- Requests the host presents that are not accepted yet, oldest first (R230: they wait). -/
  offered : List Request
  /-- The moves to come, first one first. Once it is empty the core goes on by itself. -/
  moves : List Move
  /-- The responses that have left the core, oldest first. The core reads none of them back. -/
  delivered : List Delivery
  deriving DecidableEq, Repr

/-- The faults of the machine: none. No function of the core "raises an error, traps or hangs" (R200), and there is no
trap mechanism (R205); an error of a request is a response value, `Response.err` (R201). -/
inductive Fault where
  deriving DecidableEq, Repr

/-- The refusals of the machine. -/
inductive Refusal where
  /-- Raised by `exec` alone, for an instruction that has no meaning yet, named by its mnemonic; no arm of this model
  uses it. Safe: the machine stops where the hardware goes on. -/
  | notModelled (mnemonic : String)
  deriving DecidableEq, Repr

/-- What a step answers. -/
abbrev Answer := Host.Outcome State Fault Refusal

/-- The machine right after reset (R29, R221): the queue empty, the ROMs and the parameters those of the build, the reset
input released (DEDUCED from R220, log entry 10), nothing presented, nothing delivered, no move chosen (DESIGN CHOICE, log
entry 5; unsafe for a claim about the run from this state). -/
def State.reset : State where
  sbox := Config.sboxRom
  perm := Config.permRom
  build := Config.build
  resetIn := false
  pending := []
  offered := []
  moves := []
  delivered := []

end Sys2Proof.Machine
end

