-- ==== Sys2Proof/Machine/Ops.lean ====
section
/-! DEFINITION. The named operations the meanings share: the ROM reads (spec/20_memory.md rule R41), bit and group access
to a word (spec/00_scope.md rule R8, spec/42_schedule.md rules R141, R142), giving a response and raising the error
response (spec/30_encoding.md rule R63, spec/60_exceptions.md rule R201), and what reset and the queue do
(spec/70_reset_and_hazards.md). -/

namespace Sys2Proof.Machine

/-- `SBOX[i]`: one whole entry, no side effect; a 5-bit index is always in range (R41, R44). -/
def readSbox (t : SboxRom) (i : Half) : Half := t[i.toNat]

/-- `PERM[i]`: one whole entry, no side effect (R41, R44). -/
def readPerm (t : PermRom) (i : Fin 60) : Fin 60 := t[i]

/-- The assignment `v[j] = b` to one bit of a word (R8). -/
def setBit (v : Word60) (j : Nat) (b : Bool) : Word60 :=
  if b then v ||| (1#60 <<< j) else v &&& ~~~(1#60 <<< j)

/-- Slot `j` of a 60-bit word, `w[5j+4 : 5j]` (R141). -/
def slot (w : Word60) (j : Nat) : Half := w.extractLsb' (5 * j) 5

/-- The assignment `w[5j+4 : 5j] = v` to one slot (R141). -/
def setSlot (w : Word60) (j : Nat) (v : Half) : Word60 :=
  (w &&& ~~~(0x1F#60 <<< (5 * j))) ||| (v.setWidth 60 <<< (5 * j))

/-- Nibble `j` of the tweak, `tweak[4j+3 : 4j]` (R142). -/
def nibble (tweak : Tweak) (j : Nat) : Nibble := tweak.extractLsb' (4 * j) 4

/-- A response leaves the core; its transaction took the cycles `LATENCY` gives its `op` (R63, R225). Nothing else
changes (R201, R224). -/
def State.deliver (s : State) (op : Selector) (p : Response) : State :=
  { s with delivered := s.delivered ++ [{ resp := p, latency := s.build.latency[op.toNat] }] }

/-- The core answers the request with `p` (R60: exactly one response). -/
def respond (op : Selector) (p : Response) (s : State) : Answer := .next (s.deliver op p)

/-- `raise Err(cause)`: the response of the request is `Err(cause)`, and nothing else is computed for it (R11, R201). This
is the core's only exception: it saves nothing, enters no handler, and there is no return from it (R205, R206). -/
def raiseErr (cause : ErrCause) : Response := .err cause

/-- A test-view operation: its response in a build that has the test view, and `Err(RESERVED_OP)` in a build without it,
which treats 0x1 to 0xB as it treats the reserved selectors (R64, R65, R202). The selector is checked first (R203). -/
def answerTestView (op : Selector) (p : Response) (s : State) : Answer :=
  respond op (if s.build.testView then p else raiseErr .reservedOp) s

/-- The pending queue with other contents. -/
def State.withPending (s : State) (pending : List Request) : State := { s with pending := pending }

/-- The list of moves with other contents. -/
def State.withMoves (s : State) (moves : List Move) : State := { s with moves := moves }

/-- The host presents a request behind those it already presents (R227). -/
def State.present (s : State) (q : Request) : State := { s with offered := s.offered ++ [q] }

/-- What reset does to the core: the pending queue becomes empty, and nothing else exists to reset (R29, R221). -/
def State.flush (s : State) : State := { s with pending := [] }

/-- The reset input at a level. -/
def State.withResetIn (s : State) (level : Bool) : State := { s with resetIn := level }

/-- Whether the interface can accept a request now: not while reset is asserted (R220), and not while the queue holds
`MAX_OUTSTANDING` requests (R230). -/
def State.canAccept (s : State) : Bool := !s.resetIn && decide (s.pending.length < s.build.maxOutstanding)

/-- The oldest presented request joins the tail of the queue if the interface can accept it; otherwise it waits, which is
"a hold, not an error" (R31, R230). -/
def State.acceptOldest (s : State) : State :=
  match s.offered with
  | [] => s
  | q :: rest => if s.canAccept then { s with pending := s.pending ++ [q], offered := rest } else s

end Sys2Proof.Machine
end

