-- ==== Sys2Proof/Machine/Operands.lean ====
section
/-! DEFINITION. Every operand form of the operations: the narrow reads of spec/30_encoding.md rules R62 and R66, and the
splits of a round key and a block (spec/41_mixing_round.md rules R125, R126). A narrow read takes the low bits of a field;
the other bits have no effect. The rotation amount is the exception: it is range-checked, not truncated (R66). -/

namespace Sys2Proof.Machine

/-- `x[4:0]` (R62: G, SBOX, ROT5). -/
def lowHalf (x : Word60) : Half := x.extractLsb' 0 5

/-- `x[9:0]` (R62: ROUND, ROUND.F). -/
def lowBlock (x : Word60) : Block := x.extractLsb' 0 10

/-- `key[24:0]`: the operand of G (R62), and `SK0` of a round key (R125). -/
def subKey0 (key : RoundKey) : SubKey := key.extractLsb' 0 25

/-- `SK1 = key[29:25]` of a round key (R125). -/
def subKey1 (key : RoundKey) : Half := key.extractLsb' 25 5

/-- `xL = x[9:5]`, the high half of a block (R126). -/
def leftHalf (x : Block) : Half := x.extractLsb' 5 5

/-- `xR = x[4:0]`, the low half of a block (R126). -/
def rightHalf (x : Block) : Half := x.extractLsb' 0 5

/-- The join `(newXL << 5) | newXR` of two halves (R126). -/
def joinHalves (l r : Half) : Block := l ++ r

/-- `k_i = kk[5i+4 : 5i]`, a fragment of G's key, for `i` in 0..4 (R121). -/
def keyFragment (kk : SubKey) (i : Nat) : Half := kk.extractLsb' (5 * i) 5

/-- `T[29:0]`, the low round key of a schedule word (R151). -/
def lowRoundKey (t : Word60) : RoundKey := t.extractLsb' 0 30

/-- `T[59:30]`, the high round key of a schedule word (R151). -/
def highRoundKey (t : Word60) : RoundKey := t.extractLsb' 30 30

/-- The rotation amount of ROT5, if it is in 0..4 (R105). -/
def amount5? (r : Amount) : Option (Fin 5) := if h : r.toNat < 5 then some ⟨r.toNat, h⟩ else none

/-- The rotation amount of ROT60, if it is in 0..59 (R110). -/
def amount60? (r : Amount) : Option (Fin 60) := if h : r.toNat < 60 then some ⟨r.toNat, h⟩ else none

end Sys2Proof.Machine
end

