-- ==== Sys2Proof/Machine/Primitives.lean ====
section
/-! DEFINITION. The leaf functions of spec/40_primitives.md and their operations SBOX, ROT5 and ROT60. -/

namespace Sys2Proof.Machine

/-- The document's `substitute` (R100). -/
def substitute (t : SboxRom) (v : Half) : Half := readSbox t v

/-- The document's `rotate5`: circular left rotation, defined for an amount in 0..4 only (R105). -/
def rotate5 (v : Half) (r : Fin 5) : Half := v.rotateLeft r.val

/-- The document's `rotate60`: circular left rotation, defined for an amount in 0..59 only (R110). -/
def rotate60 (v : Word60) (r : Fin 60) : Word60 := v.rotateLeft r.val

/-- The response of SBOX (R100). -/
def sboxResponse (t : SboxRom) (x : Word60) : Response := .ok1 (.w5 (substitute t (lowHalf x)))

/-- The response of ROT5: `Err(ROT_RANGE)` if `r >= 5` (R105, R202). -/
def rot5Response (x : Word60) (r : Amount) : Response :=
  match amount5? r with
  | some a => .ok1 (.w5 (rotate5 (lowHalf x) a))
  | none => raiseErr .rotRange

/-- The response of ROT60: `Err(ROT_RANGE)` if `r >= 60` (R110, R202). -/
def rot60Response (x : Word60) (r : Amount) : Response :=
  match amount60? r with
  | some a => .ok1 (.w60 (rotate60 x a))
  | none => raiseErr .rotRange

/-- SBOX (R100). -/
def execSbox (x : Word60) (s : State) : Answer := answerTestView 0x5 (sboxResponse s.sbox x) s

/-- ROT5 (R105). -/
def execRot5 (x : Word60) (r : Amount) (s : State) : Answer := answerTestView 0x6 (rot5Response x r) s

/-- ROT60 (R110). -/
def execRot60 (x : Word60) (r : Amount) (s : State) : Answer := answerTestView 0x7 (rot60Response x r) s

end Sys2Proof.Machine
end

