-- ==== Sys2Proof/Machine/Mixing.lean ====
section
/-! DEFINITION. The mixing function and the round function of spec/41_mixing_round.md, and their operations G, ROUND and
ROUND.F. -/

namespace Sys2Proof.Machine

/-- The document's `G`: the five key terms, then the fixed quadratic cross-term (R121). -/
def mixG (v : Half) (kk : SubKey) : Half :=
  let t0 := rotate5 v 0
  let t1 := rotate5 v 1
  let t2 := rotate5 v 2
  let t3 := rotate5 v 3
  let t4 := rotate5 v 4
  (t0 &&& keyFragment kk 0) ^^^ (t1 &&& keyFragment kk 1) ^^^ (t2 &&& keyFragment kk 2) ^^^
    (t3 &&& keyFragment kk 3) ^^^ (t4 &&& keyFragment kk 4) ^^^ (t1 &&& t2)

/-- The non-final round, `round(x, key, isFinal = false)`: `SK1` enters before the S-box, and the S-box output lands in
the right half (R127). -/
def roundNf (t : SboxRom) (x : Block) (key : RoundKey) : Block :=
  let xL := leftHalf x
  let newXL := rightHalf x ^^^ mixG xL (subKey0 key)
  let newXR := substitute t (xL ^^^ subKey1 key)
  joinHalves newXL newXR

/-- The final round, `round(x, key, isFinal = true)`: `SK1` enters after the S-box, and the S-box output lands in the left
half (R128). -/
def roundFinal (t : SboxRom) (x : Block) (key : RoundKey) : Block :=
  let xL := leftHalf x
  let newXR := rightHalf x ^^^ mixG xL (subKey0 key)
  let newXL := substitute t xL ^^^ subKey1 key
  joinHalves newXL newXR

/-- The response of G (R121). -/
def gResponse (x : Word60) (key : RoundKey) : Response := .ok1 (.w5 (mixG (lowHalf x) (subKey0 key)))

/-- The response of ROUND (R127). -/
def roundResponse (t : SboxRom) (x : Word60) (key : RoundKey) : Response := .ok1 (.w10 (roundNf t (lowBlock x) key))

/-- The response of ROUND.F (R128). -/
def roundFResponse (t : SboxRom) (x : Word60) (key : RoundKey) : Response :=
  .ok1 (.w10 (roundFinal t (lowBlock x) key))

/-- G (R121). -/
def execG (x : Word60) (key : RoundKey) (s : State) : Answer := answerTestView 0x4 (gResponse x key) s

/-- ROUND (R127). -/
def execRound (x : Word60) (key : RoundKey) (s : State) : Answer := answerTestView 0x2 (roundResponse s.sbox x key) s

/-- ROUND.F (R128). -/
def execRoundF (x : Word60) (key : RoundKey) (s : State) : Answer := answerTestView 0x3 (roundFResponse s.sbox x key) s

end Sys2Proof.Machine
end

