-- ==== Sys2Proof/Machine/Schedule.lean ====
section
/-! DEFINITION. The tweak/key schedule of spec/42_schedule.md: its four layer functions, the intermediate words T1..T8,
the round keys, and the operations EXPAND, SUBWORDS, SIGMA, PERMBITS and SCHEDULE. -/

namespace Sys2Proof.Machine

/-- The slot that nibble `j` goes to (R143). -/
def ExpandOrder.slotOf (o : ExpandOrder) (j : Nat) : Nat :=
  match o with
  | .preserve => j
  | .reverse => 11 - j

/-- The document's `expand`: nibble by nibble, each zero-extended into its slot (R143). -/
def expandTweak (o : ExpandOrder) (tweak : Tweak) : Word60 :=
  (List.range 12).foldl (fun w j => setSlot w (ExpandOrder.slotOf o j) ((nibble tweak j).setWidth 5)) 0

/-- The document's `substituteWords`: the S-box on each of the twelve slots, in place (R144). -/
def substituteWords (t : SboxRom) (w : Word60) : Word60 :=
  (List.range 12).foldl (fun out j => setSlot out j (substitute t (slot w j))) 0

/-- The document's `Sigma`: a fixed linear diffusion (R145). -/
def sigmaLayer (v : Word60) : Word60 :=
  v ^^^ rotate60 v 6 ^^^ rotate60 v 12 ^^^ rotate60 v 19 ^^^ rotate60 v 29 ^^^ rotate60 v 43 ^^^ rotate60 v 51

/-- The document's `permuteBits`: input bit `i` goes to output bit `PERM[i]` (R146). -/
def permuteBits (p : PermRom) (w : Word60) : Word60 :=
  (List.finRange 60).foldl (fun out i => setBit out (readPerm p i).val (w.getLsbD i.val)) 0

/-- The intermediate words T1..T8 of one schedule (R27, R150). They live inside one transaction only. -/
structure ScheduleWords where
  t1 : Word60
  t2 : Word60
  t3 : Word60
  t4 : Word60
  t5 : Word60
  t6 : Word60
  t7 : Word60
  t8 : Word60
  deriving DecidableEq, Repr

/-- The eight steps of R150. Each key word enters once. -/
def scheduleWords (t : SboxRom) (p : PermRom) (o : ExpandOrder) (tweak : Tweak) (k3 k2 k1 k0 : Word60) :
    ScheduleWords :=
  let t1 := expandTweak o tweak ^^^ k0
  let t2 := substituteWords t t1
  let t3 := sigmaLayer t2 ^^^ k1
  let t4 := substituteWords t t3 ^^^ k2
  let t5 := permuteBits p t4
  let t6 := substituteWords t t5
  let t7 := sigmaLayer t6 ^^^ k3
  let t8 := substituteWords t t7
  { t1 := t1, t2 := t2, t3 := t3, t4 := t4, t5 := t5, t6 := t6, t7 := t7, t8 := t8 }

/-- The round keys: the halves of T1, T3, T6 and T8 (R151). -/
def ScheduleWords.roundKeys (w : ScheduleWords) : RoundKeys where
  rk0 := lowRoundKey w.t1
  rk1 := highRoundKey w.t1
  rk2 := lowRoundKey w.t3
  rk3 := highRoundKey w.t3
  rk4 := lowRoundKey w.t6
  rk5 := highRoundKey w.t6
  rk6 := lowRoundKey w.t8
  rk7 := highRoundKey w.t8

/-- The document's `schedule` (R152). -/
def scheduleKeys (t : SboxRom) (p : PermRom) (o : ExpandOrder) (tweak : Tweak) (k3 k2 k1 k0 : Word60) : RoundKeys :=
  (scheduleWords t p o tweak k3 k2 k1 k0).roundKeys

/-- The response of EXPAND (R143). -/
def expandResponse (o : ExpandOrder) (tweak : Tweak) : Response := .ok1 (.w60 (expandTweak o tweak))

/-- The response of SUBWORDS (R144). -/
def subwordsResponse (t : SboxRom) (x : Word60) : Response := .ok1 (.w60 (substituteWords t x))

/-- The response of SIGMA (R145). -/
def sigmaResponse (x : Word60) : Response := .ok1 (.w60 (sigmaLayer x))

/-- The response of PERMBITS (R146). -/
def permbitsResponse (p : PermRom) (x : Word60) : Response := .ok1 (.w60 (permuteBits p x))

/-- The response of SCHEDULE (R152). -/
def scheduleResponse (t : SboxRom) (p : PermRom) (o : ExpandOrder) (tweak : Tweak) (k0 k1 k2 k3 : Word60) : Response :=
  .okRk (scheduleKeys t p o tweak k3 k2 k1 k0)

/-- EXPAND (R143). -/
def execExpand (tweak : Tweak) (s : State) : Answer := answerTestView 0x8 (expandResponse s.build.expandOrder tweak) s

/-- SUBWORDS (R144). -/
def execSubwords (x : Word60) (s : State) : Answer := answerTestView 0x9 (subwordsResponse s.sbox x) s

/-- SIGMA (R145). -/
def execSigma (x : Word60) (s : State) : Answer := answerTestView 0xA (sigmaResponse x) s

/-- PERMBITS (R146). -/
def execPermbits (x : Word60) (s : State) : Answer := answerTestView 0xB (permbitsResponse s.perm x) s

/-- SCHEDULE (R152). -/
def execSchedule (tweak : Tweak) (k0 k1 k2 k3 : Word60) (s : State) : Answer :=
  answerTestView 0x1 (scheduleResponse s.sbox s.perm s.build.expandOrder tweak k0 k1 k2 k3) s

end Sys2Proof.Machine
end

