-- ==== Sys2Proof/Machine/Cipher.lean ====
section
/-! DEFINITION. The top-level cipher of spec/43_cipher.md and its operation ENCRYPT, the one public operation. -/

namespace Sys2Proof.Machine

/-- The block before and after each round, x_0 .. x_8 (R27, R171). They live inside one transaction only. -/
structure RoundBlocks where
  x0 : Block
  x1 : Block
  x2 : Block
  x3 : Block
  x4 : Block
  x5 : Block
  x6 : Block
  x7 : Block
  x8 : Block
  deriving DecidableEq, Repr

/-- The round sequence: rounds 0..6 are non-final, round 7 is final, round `i` uses `RK_i` (R171). -/
def roundSequence (t : SboxRom) (rk : RoundKeys) (pt : Block) : RoundBlocks :=
  let x1 := roundNf t pt rk.rk0
  let x2 := roundNf t x1 rk.rk1
  let x3 := roundNf t x2 rk.rk2
  let x4 := roundNf t x3 rk.rk3
  let x5 := roundNf t x4 rk.rk4
  let x6 := roundNf t x5 rk.rk5
  let x7 := roundNf t x6 rk.rk6
  let x8 := roundFinal t x7 rk.rk7
  { x0 := pt, x1 := x1, x2 := x2, x3 := x3, x4 := x4, x5 := x5, x6 := x6, x7 := x7, x8 := x8 }

/-- The document's `encrypt` (R170). -/
def encryptBlock (t : SboxRom) (p : PermRom) (o : ExpandOrder) (pt : Block) (k3 k2 k1 k0 : Word60) (tweak : Tweak) :
    Block :=
  (roundSequence t (scheduleKeys t p o tweak k3 k2 k1 k0) pt).x8

/-- The response of ENCRYPT: `Ok1(ct)` (R170). -/
def encryptResponse (t : SboxRom) (p : PermRom) (o : ExpandOrder) (pt : Block) (tweak : Tweak) (k0 k1 k2 k3 : Word60) :
    Response :=
  .ok1 (.w10 (encryptBlock t p o pt k3 k2 k1 k0 tweak))

/-- ENCRYPT (R170). It never answers `Err`, and it is in every build (R64, R200). -/
def execEncrypt (pt : Block) (tweak : Tweak) (k0 k1 k2 k3 : Word60) (s : State) : Answer :=
  respond 0x0 (encryptResponse s.sbox s.perm s.build.expandOrder pt tweak k0 k1 k2 k3) s

end Sys2Proof.Machine
end

