-- ==== Sys2Proof/Machine/Reserved.lean ====
section
/-! DEFINITION. The reserved selectors 0xC..0xF (spec/30_encoding.md rule R65, spec/60_exceptions.md rules R202, R203). -/

namespace Sys2Proof.Machine

/-- A reserved selector: `Err(RESERVED_OP)`, and no other field is read (R65, R202). The selector is checked first, so no
operand can raise another cause (R203). -/
def execReserved (op : Selector) (s : State) : Answer := respond op (raiseErr .reservedOp) s

end Sys2Proof.Machine
end

