-- ==== Sys2Proof/Machine/Dispatch.lean ====
section
/-! DEFINITION. The one place where an instruction meets its meaning. -/

namespace Sys2Proof.Machine

/-- The meaning of an instruction: one direct call an arm. -/
def exec (i : Instr) (s : State) : Host.Outcome State Fault Refusal :=
  match i with
  | .encrypt pt tweak k0 k1 k2 k3 => Sys2Proof.Machine.execEncrypt pt tweak k0 k1 k2 k3 s
  | .schedule tweak k0 k1 k2 k3 => Sys2Proof.Machine.execSchedule tweak k0 k1 k2 k3 s
  | .round x key => Sys2Proof.Machine.execRound x key s
  | .roundF x key => Sys2Proof.Machine.execRoundF x key s
  | .g x key => Sys2Proof.Machine.execG x key s
  | .sbox x => Sys2Proof.Machine.execSbox x s
  | .rot5 x r => Sys2Proof.Machine.execRot5 x r s
  | .rot60 x r => Sys2Proof.Machine.execRot60 x r s
  | .expand tweak => Sys2Proof.Machine.execExpand tweak s
  | .subwords x => Sys2Proof.Machine.execSubwords x s
  | .sigma x => Sys2Proof.Machine.execSigma x s
  | .permbits x => Sys2Proof.Machine.execPermbits x s
  | .reserved op => Sys2Proof.Machine.execReserved op s

end Sys2Proof.Machine
end

