-- ==== Sys2Proof/Machine/Interface.lean ====
section
/-! DEFINITION. The two agents' moves (spec/10_state.md rules R30, R31; spec/70_reset_and_hazards.md rules R220, R221, R227,
R230): the host presents requests and drives reset, the interface accepts, the core answers. -/

namespace Sys2Proof.Machine

/-- The core turns the request at the head of the pending queue into its response, in one atomic step (R30). The response
to the head leaves first, and the request leaves the queue with it (R31). While reset is asserted no response is sent
(R220); with no request pending the core waits (R222). -/
def answerHead (s : State) : Answer :=
  if s.resetIn then .next s
  else
    match s.pending with
    | [] => .next s
    | q :: rest => exec (decodeRequest q) (s.withPending rest)

/-- The core by itself, no move being chosen for it: it answers while its queue holds a request (R230: that step "is
always enabled while the queue is non-empty"), else it accepts, else it waits. The order of the
two is the model's (DESIGN CHOICE, log entry 7). -/
def coreAlone (s : State) : Answer :=
  match s.pending with
  | _ :: _ => answerHead s
  | [] => .next s.acceptOldest

/-- One chosen move. The queue empties when reset is asserted and again when it is released (DESIGN CHOICE, log entry 10),
and so also when the move finds the input at the level it drives: releasing a reset that is not asserted drops the pending
requests (DESIGN CHOICE, log entry 22; unsafe). Power-on and waking leave the reset input alone (DESIGN CHOICE, log entry 11). -/
def makeMove (m : Move) (s : State) : Answer :=
  match m with
  | .send q => .next (s.present q)
  | .assertReset => .next ((s.withResetIn true).flush)
  | .deassertReset => .next ((s.withResetIn false).flush)
  | .powerOn => .next s.flush
  | .wake => .next s.flush
  | .accept => .next s.acceptOldest
  | .respond => answerHead s

end Sys2Proof.Machine
end

