-- ==== Sys2Proof/Machine/Step.lean ====
section
/-! DEFINITION. One step of the machine, and how the host's pipeline places a request for the next step. -/

namespace Sys2Proof.Machine

/-- One step: the first move of the list is made; with no move listed the core goes on by itself. -/
def step (s : State) : Host.Outcome State Fault Refusal :=
  match s.moves with
  | [] => coreAlone s
  | m :: rest => makeMove m (s.withMoves rest)

/-- The state in which the very next step answers the request whose packed word has `w` in its low `nbits` bits and 0
above. The machine has no program counter: an instruction is fetched from the head of the pending queue, so that is
where the request is put (in place of the head, if there is one), with the reset input released and the core to move (log
entry 15). -/
def State.withFetchWord (s : State) (nbits w : Nat) : State :=
  { s with
    pending := Request.unpack (BitVec.ofNat 398 (w % 2 ^ nbits)) :: s.pending.tail
    resetIn := false
    moves := .respond :: s.moves }

end Sys2Proof.Machine
end

