-- ==== Sys2Proof/Machine/Flags.lean ====
section
/-! DEFINITION. The core has no flags and no condition codes (spec/10_state.md rule R22). The one status bit of the spec
is the `err` bit of a response, with the `cause` code beside it; both belong to that response alone (R22, R63, R202). The
packed response word (R69), which carries them, stands here too. -/

namespace Sys2Proof.Machine

/-- The code of a cause in the 2-bit `cause` field (R202). Code 0 means no error; code 3 is never produced. -/
def ErrCause.code (c : ErrCause) : BitVec 2 :=
  match c with
  | .reservedOp => 1
  | .rotRange => 2

/-- The `err` bit: 1 for `Err`, 0 otherwise (R63). -/
def Response.errBit (p : Response) : BitVec 1 :=
  match p with
  | .ok1 _ => 0
  | .okRk _ => 0
  | .err _ => 1

/-- The packed `cause` field: 0 when `err` is 0 (R69). -/
def Response.causeBits (p : Response) : BitVec 2 :=
  match p with
  | .ok1 _ => 0
  | .okRk _ => 0
  | .err cause => cause.code

/-- The packed `y` field: 0 for SCHEDULE and for `Err` (R69). -/
def Response.yBits (p : Response) : Word60 :=
  match p with
  | .ok1 y => y.extended
  | .okRk _ => 0
  | .err _ => 0

/-- The packed round-key fields: 0 except for SCHEDULE (R69). -/
def Response.rkBits (p : Response) : BitVec 240 :=
  match p with
  | .ok1 _ => 0
  | .okRk rk => rk.pack
  | .err _ => 0

/-- The packed response word `resp = [rk7, .., rk0, y, cause, err]`, most significant field first (R69). -/
def Response.pack (p : Response) : ResponseWord := p.rkBits ++ p.yBits ++ p.causeBits ++ p.errBit

/-- Bytes of a response on a byte-wide channel (R68). -/
def responseBytes : Nat := 38

/-- The 38 bytes of a packed response, byte 0 first; bit 303 is 0 (R68). -/
def Response.toBytes (p : Response) : List Byte :=
  (List.range responseBytes).map fun b => p.pack.extractLsb' (8 * b) 8

end Sys2Proof.Machine
end

