-- ==== Sys2Proof/Machine/Assembler.lean ====
section
/-! DEFINITION. The textual syntax of requests and responses (spec/30_encoding.md rule R72). Text is a list of characters,
so that the reader below is plain structural recursion. The core itself reads no text. What R72 leaves
open (spaces, a field named twice, a value too wide, how a number is printed) is DESIGN CHOICE, log entry 16. -/

namespace Sys2Proof.Machine

/-- The lower-case mnemonics, for `op` 0x0 to 0xB (R72). -/
def requestMnemonics : List (List Char × Selector) :=
  [("encrypt".toList, 0x0), ("schedule".toList, 0x1), ("round".toList, 0x2), ("round.f".toList, 0x3), ("g".toList, 0x4),
    ("sbox".toList, 0x5), ("rot5".toList, 0x6), ("rot60".toList, 0x7), ("expand".toList, 0x8), ("subwords".toList, 0x9),
    ("sigma".toList, 0xA), ("permbits".toList, 0xB)]

/-- The parts of a text between the separators `c`. -/
def splitAtChar (c : Char) (text : List Char) : List (List Char) :=
  match text with
  | [] => [[]]
  | d :: rest =>
    match splitAtChar c rest with
    | [] => [[d]]
    | part :: parts => if d = c then [] :: part :: parts else (d :: part) :: parts

/-- A text without the spaces at its two ends. -/
def trimSpaces (text : List Char) : List Char :=
  ((text.dropWhile (· = ' ')).reverse.dropWhile (· = ' ')).reverse

/-- The value of a digit, hexadecimal letters in either case (R12). -/
def digitValue? (c : Char) : Option Nat :=
  if '0'.toNat ≤ c.toNat ∧ c.toNat ≤ '9'.toNat then some (c.toNat - '0'.toNat)
  else if 'a'.toNat ≤ c.toNat ∧ c.toNat ≤ 'f'.toNat then some (c.toNat - 'a'.toNat + 10)
  else if 'A'.toNat ≤ c.toNat ∧ c.toNat ≤ 'F'.toNat then some (c.toNat - 'A'.toNat + 10)
  else none

/-- The number a list of digits stands for after `acc`, in a base. -/
def digitsValue? (base acc : Nat) (digits : List Char) : Option Nat :=
  match digits with
  | [] => some acc
  | c :: rest =>
    match digitValue? c with
    | none => none
    | some d => if d < base then digitsValue? base (base * acc + d) rest else none

/-- A value: hexadecimal with `0x`, or decimal (R72). -/
def parseValue (text : List Char) : Option Nat :=
  match text with
  | [] => none
  | ['0', 'x'] => none
  | '0' :: 'x' :: digits => digitsValue? 16 0 digits
  | digits => digitsValue? 10 0 digits

/-- One field of a request set to a value, of which the field keeps its own low bits (R174). `op` may be set only after
the word `req` (R72). -/
def setRequestField (raw : Bool) (name : List Char) (v : Nat) (q : Request) : Option Request :=
  if name = "op".toList then if raw then some { q with op := BitVec.ofNat 4 v } else none
  else if name = "pt".toList then some { q with pt := BitVec.ofNat 10 v }
  else if name = "tweak".toList then some { q with tweak := BitVec.ofNat 48 v }
  else if name = "k0".toList then some { q with k0 := BitVec.ofNat 60 v }
  else if name = "k1".toList then some { q with k1 := BitVec.ofNat 60 v }
  else if name = "k2".toList then some { q with k2 := BitVec.ofNat 60 v }
  else if name = "k3".toList then some { q with k3 := BitVec.ofNat 60 v }
  else if name = "x".toList then some { q with x := BitVec.ofNat 60 v }
  else if name = "key".toList then some { q with key := BitVec.ofNat 30 v }
  else if name = "r".toList then some { q with r := BitVec.ofNat 6 v }
  else none

/-- One pair `field=value` (R72). -/
def assembleField (raw : Bool) (pair : List Char) (q : Request) : Option Request :=
  match splitAtChar '=' pair with
  | [name, value] =>
    match parseValue (trimSpaces value) with
    | some v => setRequestField raw (trimSpaces name) v q
    | none => none
  | _ => none

/-- The pairs of a request, one after another. -/
def assembleFields (raw : Bool) (pairs : List (List Char)) (q : Request) : Option Request :=
  match pairs with
  | [] => some q
  | pair :: rest =>
    match assembleField raw pair q with
    | some q' => assembleFields raw rest q'
    | none => none

/-- The request a line of text stands for: a mnemonic or the word `req`, then a comma-separated list of pairs; a field
left out is 0 (R72). -/
def assemble (line : List Char) : Option Request :=
  let text := trimSpaces line
  let word := text.takeWhile (· ≠ ' ')
  let rest := trimSpaces (text.dropWhile (· ≠ ' '))
  let pairs := if rest = [] then [] else splitAtChar ',' rest
  if word = "req".toList then assembleFields true pairs (Request.ofSelector 0)
  else
    match requestMnemonics.lookup word with
    | some op => assembleFields false pairs (Request.ofSelector op)
    | none => none

/-- A value in hexadecimal. -/
def hexText (n : Nat) : List Char := '0' :: 'x' :: Nat.toDigits 16 n

/-- The pair of one field, or nothing where it is 0: a field left out is 0 (R72). -/
def fieldText (name : String) (v : Nat) : List (List Char) :=
  if v = 0 then [] else [name.toList ++ '=' :: hexText v]

/-- Pairs with a comma and a space between them. -/
def joinPairs (pairs : List (List Char)) : List Char :=
  match pairs with
  | [] => []
  | [p] => p
  | p :: q :: rest => p ++ ',' :: ' ' :: joinPairs (q :: rest)

/-- The text of a request (R72). -/
def requestText (q : Request) : List Char :=
  let fields := fieldText "pt" q.pt.toNat ++ fieldText "tweak" q.tweak.toNat ++ fieldText "k0" q.k0.toNat ++
    fieldText "k1" q.k1.toNat ++ fieldText "k2" q.k2.toNat ++ fieldText "k3" q.k3.toNat ++ fieldText "x" q.x.toNat ++
    fieldText "key" q.key.toNat ++ fieldText "r" q.r.toNat
  match requestMnemonics.find? fun row => row.2 = q.op with
  | some row => trimSpaces (row.1 ++ ' ' :: joinPairs fields)
  | none => "req ".toList ++ joinPairs (["op=".toList ++ hexText q.op.toNat] ++ fields)

/-- The `y` of a response as a number. -/
def resultValue (y : Result) : Nat :=
  match y with
  | .w5 v => v.toNat
  | .w10 v => v.toNat
  | .w60 v => v.toNat

/-- The text of a response: `y=...`, `rk=[rk0, ..., rk7]` or `err cause=...` (R72). -/
def responseText (p : Response) : List Char :=
  match p with
  | .ok1 y => "y=".toList ++ hexText (resultValue y)
  | .okRk k =>
    "rk=[".toList ++
      joinPairs ([k.rk0, k.rk1, k.rk2, k.rk3, k.rk4, k.rk5, k.rk6, k.rk7].map fun rk => hexText rk.toNat) ++ [']']
  | .err cause => "err cause=".toList ++ Nat.toDigits 10 cause.code.toNat

/-- A request and its response on one line (R72). -/
def transactionText (q : Request) (p : Response) : List Char :=
  requestText q ++ " -> ".toList ++ responseText p

end Sys2Proof.Machine
end

