-- ==== Sys2Proof/Safety.lean ====
section
/-! DEFINITION. What claims about runs are stated with: the state invariant, the response stream a request stream
determines (spec/10_state.md rule R28, spec/20_memory.md rule R46), and the end of a run (spec/70_reset_and_hazards.md rule
R228). -/

namespace Sys2Proof.Machine

/-- The response the spec gives an instruction under a build's tables and parameters. It is a function of the instruction
and of `SBOX`, `PERM`, `EXPAND_ORDER` and the presence of the test view, and of nothing else (R28, R64). -/
def expectedResponse (t : SboxRom) (p : PermRom) (o : ExpandOrder) (testView : Bool) (i : Instr) : Response :=
  match i with
  | .encrypt pt tweak k0 k1 k2 k3 => encryptResponse t p o pt tweak k0 k1 k2 k3
  | .schedule tweak k0 k1 k2 k3 =>
    if testView then scheduleResponse t p o tweak k0 k1 k2 k3 else .err .reservedOp
  | .round x key => if testView then roundResponse t x key else .err .reservedOp
  | .roundF x key => if testView then roundFResponse t x key else .err .reservedOp
  | .g x key => if testView then gResponse x key else .err .reservedOp
  | .sbox x => if testView then sboxResponse t x else .err .reservedOp
  | .rot5 x r => if testView then rot5Response x r else .err .reservedOp
  | .rot60 x r => if testView then rot60Response x r else .err .reservedOp
  | .expand tweak => if testView then expandResponse o tweak else .err .reservedOp
  | .subwords x => if testView then subwordsResponse t x else .err .reservedOp
  | .sigma x => if testView then sigmaResponse x else .err .reservedOp
  | .permbits x => if testView then permbitsResponse p x else .err .reservedOp
  | .reserved _ => .err .reservedOp

/-- The response of an instruction in a state. -/
def State.responseTo (s : State) (i : Instr) : Response :=
  expectedResponse s.sbox s.perm s.build.expandOrder s.build.testView i

/-- Two requests that select the same operation and agree on the bits that operation reads (R62). -/
def SameOperands (q q' : Request) : Prop :=
  q.op = q'.op ∧
    match q.op.toNat with
    | 0x0 => q.pt = q'.pt ∧ q.tweak = q'.tweak ∧ q.k0 = q'.k0 ∧ q.k1 = q'.k1 ∧ q.k2 = q'.k2 ∧ q.k3 = q'.k3
    | 0x1 => q.tweak = q'.tweak ∧ q.k0 = q'.k0 ∧ q.k1 = q'.k1 ∧ q.k2 = q'.k2 ∧ q.k3 = q'.k3
    | 0x2 => q.x.extractLsb' 0 10 = q'.x.extractLsb' 0 10 ∧ q.key = q'.key
    | 0x3 => q.x.extractLsb' 0 10 = q'.x.extractLsb' 0 10 ∧ q.key = q'.key
    | 0x4 => q.x.extractLsb' 0 5 = q'.x.extractLsb' 0 5 ∧ q.key.extractLsb' 0 25 = q'.key.extractLsb' 0 25
    | 0x5 => q.x.extractLsb' 0 5 = q'.x.extractLsb' 0 5
    | 0x6 => q.x.extractLsb' 0 5 = q'.x.extractLsb' 0 5 ∧ q.r = q'.r
    | 0x7 => q.x = q'.x ∧ q.r = q'.r
    | 0x8 => q.tweak = q'.tweak
    | 0x9 => q.x = q'.x
    | 0xA => q.x = q'.x
    | 0xB => q.x = q'.x
    | _ => True

/-- The number of 1 bits of a value. -/
def onesCount {n : Nat} (v : BitVec n) : Nat := (List.range n).countP fun i => v.getLsbD i

/-- What leaves the core for a request: its response, after the latency of its `op` (R225). -/
def State.deliveryFor (s : State) (q : Request) : Delivery where
  resp := s.responseTo (decodeRequest q)
  latency := s.build.latency[q.op.toNat]

/-- The requests that the moves to come will present, in order. -/
def sentBy (moves : List Move) : List Request :=
  match moves with
  | [] => []
  | .send q :: rest => q :: sentBy rest
  | .assertReset :: rest => sentBy rest
  | .deassertReset :: rest => sentBy rest
  | .powerOn :: rest => sentBy rest
  | .wake :: rest => sentBy rest
  | .accept :: rest => sentBy rest
  | .respond :: rest => sentBy rest

/-- Whether a move empties the queue (R214, R220, R221). -/
def Move.resets (m : Move) : Bool :=
  match m with
  | .send _ => false
  | .assertReset => true
  | .deassertReset => true
  | .powerOn => true
  | .wake => true
  | .accept => false
  | .respond => false

/-- No move to come empties the queue. -/
abbrev NoReset (moves : List Move) : Prop := ∀ m ∈ moves, m.resets = false

/-- The requests on their way, oldest first: pending, then presented, then still to be presented. -/
def State.requestStream (s : State) : List Request := s.pending ++ s.offered ++ sentBy s.moves

/-- The responses already delivered, and then one for each request on its way, in request order (R31, R46). -/
def State.responseStream (s : State) : List Delivery := s.delivered ++ s.requestStream.map s.deliveryFor

/-- R228: the host has sent its last request, and every request the core accepted has its response. Two points are the
model's: a request presented and not yet accepted counts as not yet sent, so `offered` must be empty (DESIGN CHOICE, log
entry 20); and a run whose queue was emptied by reset, power-on or waking may have ended, although its dropped requests
have no response (DESIGN CHOICE, log entry 21). -/
abbrev RunEnded (s : State) : Prop := s.pending = [] ∧ s.offered = [] ∧ sentBy s.moves = []

/-- The core is idle while no request is pending (R214). -/
abbrev Idle (s : State) : Prop := s.pending = []

/-- R130: the inverse of the non-final round, given an inverse of the S-box. It is no operation of the core (R4). -/
def invRoundNf (inverse : Half → Half) (y : Block) (key : RoundKey) : Block :=
  let xL := inverse (rightHalf y) ^^^ subKey1 key
  joinHalves xL (leftHalf y ^^^ mixG xL (subKey0 key))

/-- R130: the inverse of the final round. It is no operation of the core (R4). -/
def invRoundFinal (inverse : Half → Half) (y : Block) (key : RoundKey) : Block :=
  let xL := inverse (leftHalf y ^^^ subKey1 key)
  joinHalves xL (rightHalf y ^^^ mixG xL (subKey0 key))

/-- R176: the inverse rounds from round 7 down to round 0, with the same round keys. -/
def undoRounds (inverse : Half → Half) (rk : RoundKeys) (ct : Block) : Block :=
  let x7 := invRoundFinal inverse ct rk.rk7
  let x6 := invRoundNf inverse x7 rk.rk6
  let x5 := invRoundNf inverse x6 rk.rk5
  let x4 := invRoundNf inverse x5 rk.rk4
  let x3 := invRoundNf inverse x4 rk.rk3
  let x2 := invRoundNf inverse x3 rk.rk2
  let x1 := invRoundNf inverse x2 rk.rk1
  invRoundNf inverse x1 rk.rk0

/-- What every state of a legal build satisfies: the tables are bijections (R6, R25, R101), `MAX_OUTSTANDING` is at least 1
(R6), the queue holds at most that many requests (R31), and it is empty while reset is asserted (R220 and R221 name no edge:
DESIGN CHOICE, log entry 10). -/
structure Inv (s : State) : Prop where
  wellFormedBuild : WellFormedBuild s.sbox s.perm s.build
  queueFits : s.pending.length ≤ s.build.maxOutstanding
  quietInReset : s.resetIn = true → s.pending = []

end Sys2Proof.Machine
end

