-- ==== Sys2Proof/Certificates/Slice0/Obligations.lean ====
section
/-! DEFINITION. The statements for the provers. Each docstring names the rule of spec/ the statement comes from. -/

open Sys2Proof Sys2Proof.Machine

/-! ## Encoding (spec/30_encoding.md) -/

/-- R67, R68, R71: no bit of an encoding is dropped. For every well-formed instruction, its 50 bytes at the head of a byte
stream decode to it, and the rest of the stream is left. -/
def Obligations.EncodedBytesDecodeToTheInstruction : Prop :=
  ∀ (i : Instr) (rest : List Byte), i.wellFormed = true → decodeBytes (encodeBytes i ++ rest) = .ok (i, rest)

/-- R67: the packed request word has each field at the bits of the table, and it is the concatenation of its fields and
nothing else; the decoder's selector is `req[3:0]`, and it reads the fields at those bits. -/
def Obligations.PackedRequestWordLayout : Prop :=
  (∀ q : Request,
    q.pack.extractLsb' 0 4 = q.op ∧ q.pack.extractLsb' 4 10 = q.pt ∧ q.pack.extractLsb' 14 48 = q.tweak ∧
      q.pack.extractLsb' 62 60 = q.k0 ∧ q.pack.extractLsb' 122 60 = q.k1 ∧ q.pack.extractLsb' 182 60 = q.k2 ∧
      q.pack.extractLsb' 242 60 = q.k3 ∧ q.pack.extractLsb' 302 60 = q.x ∧ q.pack.extractLsb' 362 30 = q.key ∧
      q.pack.extractLsb' 392 6 = q.r) ∧
    (∀ q : Request, decodeWord q.pack = decodeRequest q) ∧
    ∀ w : RequestWord, (Request.unpack w).pack = w ∧ (decodeWord w).selector = w.extractLsb' 0 4

/-- R68: byte `b` of a serialised word holds its bits `8b+7 .. 8b`, bit `8b` in bit 0 of the byte, byte 0 first; a request
takes 50 bytes whose top two bits are 0 and are ignored; a response takes 38 bytes whose top bit is 0. -/
def Obligations.ByteSerialisationLayout : Prop :=
  (∀ w : RequestWord,
    (wordToBytes w).length = 50 ∧
      ∀ (b : Fin 50) (i : Fin 8), ∃ byte, (wordToBytes w)[b.val]? = some byte ∧
        byte.getLsbD i.val = if 8 * b.val + i.val < 398 then w.getLsbD (8 * b.val + i.val) else false) ∧
    (∀ bs : List Byte, bs.length = 50 →
      ∀ k : Fin 398, ∃ byte, bs[k.val / 8]? = some byte ∧
        (bytesToWord bs).getLsbD k.val = byte.getLsbD (k.val % 8)) ∧
    ∀ p : Response,
      p.toBytes.length = 38 ∧
        ∀ (b : Fin 38) (i : Fin 8), ∃ byte, p.toBytes[b.val]? = some byte ∧
          byte.getLsbD i.val = if 8 * b.val + i.val < 303 then p.pack.getLsbD (8 * b.val + i.val) else false

/-- R64, R65, R70: every request word meets the match and mask of exactly one row of the opcode table, the row of the
instruction it decodes to, and that instruction is well-formed. R68, R71 and log entry 12 (DESIGN CHOICE): a byte stream
decodes if and only if 50 bytes of it are there. -/
def Obligations.DecodingIsTotalAndUnambiguous : Prop :=
  (∀ w : RequestWord, rowsOf (w.extractLsb' 0 4) = [(decodeWord w).mnemonic] ∧ (decodeWord w).wellFormed = true) ∧
    ∀ bs : List Byte, (∃ i rest, decodeBytes bs = .ok (i, rest)) ↔ 50 ≤ bs.length

/-- R62: an operation reads exactly the bits of the table; requests that agree on the selector and on those bits are
answered alike in every state. -/
def Obligations.AnOperationReadsOnlyItsOperands : Prop :=
  ∀ (q q' : Request) (s : State), SameOperands q q' → exec (decodeRequest q) s = exec (decodeRequest q') s

/-- R66: where an operation reads the low bits of a field, the other bits of the field have no effect; the rotation amount
is range-checked, not truncated. -/
def Obligations.NarrowReadsIgnoreHighBits : Prop :=
  ∀ (x x' : Word60) (key key' : RoundKey) (r : Amount) (s : State),
    (x.toNat % 2 ^ 5 = x'.toNat % 2 ^ 5 →
      exec (.sbox x) s = exec (.sbox x') s ∧ exec (.rot5 x r) s = exec (.rot5 x' r) s ∧
        (key.toNat % 2 ^ 25 = key'.toNat % 2 ^ 25 → exec (.g x key) s = exec (.g x' key') s)) ∧
    (x.toNat % 2 ^ 10 = x'.toNat % 2 ^ 10 →
      exec (.round x key) s = exec (.round x' key) s ∧ exec (.roundF x key) s = exec (.roundF x' key) s) ∧
    (s.build.testView = true →
      (5 ≤ r.toNat → exec (.rot5 x r) s = .next (s.deliver 0x6 (.err .rotRange))) ∧
        (60 ≤ r.toNat → exec (.rot60 x r) s = .next (s.deliver 0x7 (.err .rotRange))))

/-- R69: the packed response word has `err` at bit 0, `cause` at bits 2..1, `y` zero-extended at bits 62..3 and `rk_i` at
bits 63+30i+29 .. 63+30i; a field the response kind lacks is 0. -/
def Obligations.PackedResponseWordLayout : Prop :=
  (∀ y : Result,
    (Response.ok1 y).pack.extractLsb' 0 1 = 0 ∧ (Response.ok1 y).pack.extractLsb' 1 2 = 0 ∧
      (∀ v, y = .w5 v → ((Response.ok1 y).pack.extractLsb' 3 60).toNat = v.toNat) ∧
      (∀ v, y = .w10 v → ((Response.ok1 y).pack.extractLsb' 3 60).toNat = v.toNat) ∧
      (∀ v, y = .w60 v → ((Response.ok1 y).pack.extractLsb' 3 60).toNat = v.toNat) ∧
      (Response.ok1 y).pack.extractLsb' 63 240 = 0) ∧
    (∀ k : RoundKeys,
      (Response.okRk k).pack.extractLsb' 0 63 = 0 ∧ (Response.okRk k).pack.extractLsb' 63 30 = k.rk0 ∧
        (Response.okRk k).pack.extractLsb' 93 30 = k.rk1 ∧ (Response.okRk k).pack.extractLsb' 123 30 = k.rk2 ∧
        (Response.okRk k).pack.extractLsb' 153 30 = k.rk3 ∧ (Response.okRk k).pack.extractLsb' 183 30 = k.rk4 ∧
        (Response.okRk k).pack.extractLsb' 213 30 = k.rk5 ∧ (Response.okRk k).pack.extractLsb' 243 30 = k.rk6 ∧
        (Response.okRk k).pack.extractLsb' 273 30 = k.rk7) ∧
    ∀ c : ErrCause,
      (Response.err c).pack.extractLsb' 0 1 = 1 ∧ (Response.err c).pack.extractLsb' 1 2 = c.code ∧
        (Response.err c).pack.extractLsb' 3 300 = 0

/-- Sanity: packed request words of spec/95_test_vectors.md 3.13 and P2 to P4, as written there, decode to the requests
they stand for. -/
def Obligations.PackedRequestsOfTheSpecDecode : Prop :=
  decodeWord 0x030000000000000000000002C000000000000000000000000000000000000000000000000000000000000000000000000006 =
      .rot5 0xB 0x3 ∧
    decodeWord 0x0000000000000000000000004000000000000000000000000000000000000000000000000000000000000000000000000005 =
      .sbox 0x1 ∧
    decodeWord 0x004413F604000000000000020000000000000000000000000000000000000000000000000000000000000000000000000002 =
      .round 0x8 0x1104FD81 ∧
    decodeWord 0x0000000000000000000000000000000000000000000000000000000000000000000000000000000000001F641FF09E274008 =
      .expand 0x7D907FC2789D ∧
    decodeWord 0x0000000000000000000000002FDA19ED7BA6345E476C52F5025DB1286E0651B95A0AC0A3FC676249D72B1F641FF09E274080 =
      .encrypt 0x8 0x7D907FC2789D 0x28FF19D89275CAC 0xA1B81946E5682B0 0x91DB14BD40976C4 0xBF6867B5EE98D17 ∧
    decodeWord 0x000000000000000000000007C00000000000000000000000000000000000000000000000000000000000000000000000000F =
      .reserved 0xF

/-- R72: the examples of the rule are read and written as they stand there, up to the way a number is spelled. -/
def Obligations.RequestTextExamples : Prop :=
  assemble "rot5 x=0x0b, r=3".toList = some { Request.ofSelector 0x6 with x := 0xB, r := 3 } ∧
    assemble "req op=0xC".toList = some (Request.ofSelector 0xC) ∧
    (assemble ("encrypt pt=0x008, tweak=0x7d907fc2789d, k0=0x28ff19d89275cac, k1=0xa1b81946e5682b0, ".toList ++
        "k2=0x91db14bd40976c4, k3=0xbf6867b5ee98d17".toList)).map decodeRequest =
      some (.encrypt 0x8 0x7D907FC2789D 0x28FF19D89275CAC 0xA1B81946E5682B0 0x91DB14BD40976C4 0xBF6867B5EE98D17) ∧
    transactionText { Request.ofSelector 0x6 with x := 0xB, r := 3 } (.ok1 (.w5 0x1A)) =
      "rot5 x=0xb, r=0x3 -> y=0x1a".toList ∧
    transactionText (Request.ofSelector 0xC) (.err .reservedOp) = "req op=0xc -> err cause=1".toList

/-! ## Primitives (spec/40_primitives.md) -/

/-- R100: SBOX is `op` 0x5, reads `x[4:0]`, and answers `Ok1(y = SBOX[x[4:0]])`, 5 bits, with no error. -/
def Obligations.SboxAnswersTheTableEntry : Prop :=
  (∀ q : Request, q.op = 0x5 → decodeRequest q = .sbox q.x) ∧
    ∀ (x : Word60) (s : State), s.build.testView = true →
      ∃ (v : Fin 32) (y : Half), v.val = x.toNat % 32 ∧ s.sbox[v] = y ∧
        exec (.sbox x) s = .next (s.deliver 0x5 (.ok1 (.w5 y)))

/-- R105: ROT5 is `op` 0x6; for `r <= 4` it answers the 5-bit value whose bit `(i + r) mod 5` is bit `i` of `x[4:0]`; for
`r >= 5` it answers `Err(ROT_RANGE)`. -/
def Obligations.Rot5RotatesOrReportsTheRange : Prop :=
  (∀ q : Request, q.op = 0x6 → decodeRequest q = .rot5 q.x q.r) ∧
    ∀ (x : Word60) (r : Amount) (s : State), s.build.testView = true →
      (r.toNat ≤ 4 → ∃ y : Half, exec (.rot5 x r) s = .next (s.deliver 0x6 (.ok1 (.w5 y))) ∧
        ∀ i : Fin 5, y.getLsbD ((i.val + r.toNat) % 5) = x.getLsbD i.val) ∧
      (5 ≤ r.toNat → exec (.rot5 x r) s = .next (s.deliver 0x6 (.err .rotRange)))

/-- R110: ROT60 is `op` 0x7; for `r <= 59` it answers the 60-bit value whose bit `(i + r) mod 60` is bit `i` of `x`; for
`r >= 60` it answers `Err(ROT_RANGE)`. -/
def Obligations.Rot60RotatesOrReportsTheRange : Prop :=
  (∀ q : Request, q.op = 0x7 → decodeRequest q = .rot60 q.x q.r) ∧
    ∀ (x : Word60) (r : Amount) (s : State), s.build.testView = true →
      (r.toNat ≤ 59 → ∃ y : Word60, exec (.rot60 x r) s = .next (s.deliver 0x7 (.ok1 (.w60 y))) ∧
        ∀ i : Fin 60, y.getLsbD ((i.val + r.toNat) % 60) = x.getLsbD i.val) ∧
      (60 ≤ r.toNat → exec (.rot60 x r) s = .next (s.deliver 0x7 (.err .rotRange)))

/-- R106: the laws of rotate5, for amounts in 0..4 (the sum of two `Fin 5` is taken mod 5). -/
def Obligations.Rotate5Laws : Prop :=
  ∀ (v w : Half) (a b : Fin 5),
    rotate5 v 0 = v ∧ rotate5 (rotate5 v a) b = rotate5 v (a + b) ∧ onesCount (rotate5 v a) = onesCount v ∧
      Function.Bijective (fun u => rotate5 u a) ∧ rotate5 (v ^^^ w) a = rotate5 v a ^^^ rotate5 w a ∧
      rotate5 (v &&& w) a = rotate5 v a &&& rotate5 w a

/-- R111: the laws of rotate60, for amounts in 0..59 (the sum of two `Fin 60` is taken mod 60). -/
def Obligations.Rotate60Laws : Prop :=
  ∀ (v w : Word60) (a b : Fin 60),
    rotate60 v 0 = v ∧ rotate60 (rotate60 v a) b = rotate60 v (a + b) ∧ onesCount (rotate60 v a) = onesCount v ∧
      Function.Bijective (fun u => rotate60 u a) ∧ rotate60 (v ^^^ w) a = rotate60 v a ^^^ rotate60 w a

/-- R101: in the machine after reset two different indices of `SBOX` hold different values, every 5-bit value occurs among
the 32 entries, and the table has an inverse. The hardware's table is an opaque constant, a permutation by its type (log
entry 1), so this is of whatever table it is. -/
def Obligations.SboxAfterResetIsABijection : Prop :=
  (∀ a b : Fin 32, a ≠ b → State.reset.sbox[a] ≠ State.reset.sbox[b]) ∧
    (∀ v : Half, ∃ a : Fin 32, State.reset.sbox[a] = v) ∧
    ∃ inverse : Half → Half, ∀ v : Half, inverse (readSbox State.reset.sbox v) = v

/-- R25, R45: in the machine after reset `PERM` is a bijection on the bit positions 0..59. The hardware's table is an opaque
constant, a permutation by its type (log entry 1). -/
def Obligations.PermAfterResetIsABijection : Prop :=
  (∀ a b : Fin 60, a ≠ b → State.reset.perm[a] ≠ State.reset.perm[b]) ∧
    ∀ j : Fin 60, ∃ i : Fin 60, State.reset.perm[i] = j

/-! ## Mixing function and rounds (spec/41_mixing_round.md) -/

/-- R121: G is `op` 0x4, reads `x[4:0]` and `key[24:0]`, and bit `j` of its answer is the XOR of the five key terms and the
cross-term: bit `j` of `rotate5(v, i)` is bit `j - i` (mod 5) of `v`, and bit `j` of fragment `k_i` is key bit `5i + j`. -/
def Obligations.GMixesTheKeyFragments : Prop :=
  (∀ q : Request, q.op = 0x4 → decodeRequest q = .g q.x q.key) ∧
    ∀ (x : Word60) (key : RoundKey) (s : State), s.build.testView = true →
      ∃ y : Half, exec (.g x key) s = .next (s.deliver 0x4 (.ok1 (.w5 y))) ∧
        ∀ j : Fin 5, y.getLsbD j.val =
          ((x.getLsbD j.val && key.getLsbD j.val) ^^
            (x.getLsbD ((j.val + 4) % 5) && key.getLsbD (5 + j.val)) ^^
            (x.getLsbD ((j.val + 3) % 5) && key.getLsbD (10 + j.val)) ^^
            (x.getLsbD ((j.val + 2) % 5) && key.getLsbD (15 + j.val)) ^^
            (x.getLsbD ((j.val + 1) % 5) && key.getLsbD (20 + j.val)) ^^
            (x.getLsbD ((j.val + 4) % 5) && x.getLsbD ((j.val + 3) % 5)))

/-- R122: G is affine in its key for a fixed value, and without the cross-term it is linear in the value. -/
def Obligations.GIsAffineInTheKey : Prop :=
  ∀ (v w : Half) (a b : SubKey),
    mixG v (a ^^^ b) = mixG v a ^^^ mixG v b ^^^ mixG v 0 ∧
      mixG (v ^^^ w) a ^^^ (rotate5 (v ^^^ w) 1 &&& rotate5 (v ^^^ w) 2) =
        (mixG v a ^^^ (rotate5 v 1 &&& rotate5 v 2)) ^^^ (mixG w a ^^^ (rotate5 w 1 &&& rotate5 w 2))

/-- R125, R126, R127: ROUND is `op` 0x2; with `xL`, `xR` the halves of `x[9:0]` and `SK0`, `SK1` the parts of `key`, the
high half of its answer is `xR ^ G(xL, SK0)` and the low half is `SBOX[xL ^ SK1]`. -/
def Obligations.RoundAnswersTheNonFinalRound : Prop :=
  (∀ q : Request, q.op = 0x2 → decodeRequest q = .round q.x q.key) ∧
    ∀ (x : Word60) (key : RoundKey) (s : State), s.build.testView = true →
      ∃ (xL xR sk1 : Half) (sk0 : SubKey) (y : Block),
        x.toNat % 2 ^ 10 = xL.toNat * 2 ^ 5 + xR.toNat ∧ key.toNat = sk1.toNat * 2 ^ 25 + sk0.toNat ∧
          exec (.round x key) s = .next (s.deliver 0x2 (.ok1 (.w10 y))) ∧
          y.toNat = (xR ^^^ mixG xL sk0).toNat * 2 ^ 5 + (readSbox s.sbox (xL ^^^ sk1)).toNat

/-- R125, R126, R128: ROUND.F is `op` 0x3; the high half of its answer is `SBOX[xL] ^ SK1` and the low half is
`xR ^ G(xL, SK0)`. -/
def Obligations.RoundFAnswersTheFinalRound : Prop :=
  (∀ q : Request, q.op = 0x3 → decodeRequest q = .roundF q.x q.key) ∧
    ∀ (x : Word60) (key : RoundKey) (s : State), s.build.testView = true →
      ∃ (xL xR sk1 : Half) (sk0 : SubKey) (y : Block),
        x.toNat % 2 ^ 10 = xL.toNat * 2 ^ 5 + xR.toNat ∧ key.toNat = sk1.toNat * 2 ^ 25 + sk0.toNat ∧
          exec (.roundF x key) s = .next (s.deliver 0x3 (.ok1 (.w10 y))) ∧
          y.toNat = (readSbox s.sbox xL ^^^ sk1).toNat * 2 ^ 5 + (xR ^^^ mixG xL sk0).toNat

/-- R130: for a bijective `SBOX` and a fixed key both rounds are bijections on the blocks, and the rule's inverse formulas
give back the halves of the input. -/
def Obligations.RoundsAreInvertible : Prop :=
  ∀ (t : SboxRom) (key : RoundKey), t.Bijective →
    Function.Bijective (fun x => roundNf t x key) ∧ Function.Bijective (fun x => roundFinal t x key) ∧
      ∀ inverse : Half → Half, (∀ v, inverse (readSbox t v) = v) → ∀ x : Block,
        invRoundNf inverse (roundNf t x key) key = x ∧ invRoundFinal inverse (roundFinal t x key) key = x

/-! ## Schedule (spec/42_schedule.md) -/

/-- R141, R142, R143: EXPAND is `op` 0x8; nibble `j` of the tweak, zero-extended to 5 bits, stands in slot `j` of the answer
under PRESERVE and in slot `11 - j` under REVERSE. -/
def Obligations.ExpandPutsEachNibbleInItsSlot : Prop :=
  (∀ q : Request, q.op = 0x8 → decodeRequest q = .expand q.tweak) ∧
    ∀ (tweak : Tweak) (s : State), s.build.testView = true →
      ∃ y : Word60, exec (.expand tweak) s = .next (s.deliver 0x8 (.ok1 (.w60 y))) ∧
        (s.build.expandOrder = .preserve → ∀ j : Fin 12,
          (y.extractLsb' (5 * j.val) 5).toNat = (tweak.extractLsb' (4 * j.val) 4).toNat) ∧
        (s.build.expandOrder = .reverse → ∀ j : Fin 12,
          (y.extractLsb' (5 * (11 - j.val)) 5).toNat = (tweak.extractLsb' (4 * j.val) 4).toNat)

/-- R144: SUBWORDS is `op` 0x9; slot `j` of the answer is `SBOX` of slot `j` of `x`. -/
def Obligations.SubwordsSubstitutesEachSlot : Prop :=
  (∀ q : Request, q.op = 0x9 → decodeRequest q = .subwords q.x) ∧
    ∀ (x : Word60) (s : State), s.build.testView = true →
      ∃ y : Word60, exec (.subwords x) s = .next (s.deliver 0x9 (.ok1 (.w60 y))) ∧
        ∀ j : Fin 12, y.extractLsb' (5 * j.val) 5 = readSbox s.sbox (x.extractLsb' (5 * j.val) 5)

/-- R145: SIGMA is `op` 0xA; bit `i` of the answer is the XOR of the input bits `i`, `i-6`, `i-12`, `i-19`, `i-29`, `i-43`
and `i-51`, each taken mod 60. -/
def Obligations.SigmaXorsSevenRotations : Prop :=
  (∀ q : Request, q.op = 0xA → decodeRequest q = .sigma q.x) ∧
    ∀ (x : Word60) (s : State), s.build.testView = true →
      ∃ y : Word60, exec (.sigma x) s = .next (s.deliver 0xA (.ok1 (.w60 y))) ∧
        ∀ i : Fin 60, y.getLsbD i.val =
          (x.getLsbD i.val ^^ x.getLsbD ((i.val + 54) % 60) ^^ x.getLsbD ((i.val + 48) % 60) ^^
            x.getLsbD ((i.val + 41) % 60) ^^ x.getLsbD ((i.val + 31) % 60) ^^ x.getLsbD ((i.val + 17) % 60) ^^
            x.getLsbD ((i.val + 9) % 60))

/-- R146: PERMBITS is `op` 0xB; it completes, and for a table that is a bijection bit `PERM[i]` of the answer is bit `i` of
`x`. -/
def Obligations.PermbitsMovesEachBit : Prop :=
  (∀ q : Request, q.op = 0xB → decodeRequest q = .permbits q.x) ∧
    ∀ (x : Word60) (s : State), s.build.testView = true →
      ∃ y : Word60, exec (.permbits x) s = .next (s.deliver 0xB (.ok1 (.w60 y))) ∧
        (s.perm.Bijective → ∀ i : Fin 60, y.getLsbD (s.perm[i]).val = x.getLsbD i.val)

/-- Corner cases of R144, R145 and R146: for bijective tables substituteWords and permuteBits are bijections on the 60-bit
words; permuteBits keeps the number of 1 bits; permuteBits and Sigma are linear over XOR. -/
def Obligations.LayersAreBijectiveAndLinear : Prop :=
  ∀ (t : SboxRom) (p : PermRom), t.Bijective → p.Bijective →
    Function.Bijective (substituteWords t) ∧ Function.Bijective (permuteBits p) ∧
      (∀ w, onesCount (permuteBits p w) = onesCount w) ∧
      (∀ v w, permuteBits p (v ^^^ w) = permuteBits p v ^^^ permuteBits p w) ∧
      ∀ v w, sigmaLayer (v ^^^ w) = sigmaLayer v ^^^ sigmaLayer w

/-- R150, R151, R152: SCHEDULE is `op` 0x1; its answer is the two 30-bit halves of T1, T3, T6 and T8, where T1 .. T8 are
the eight words of the rule. -/
def Obligations.ScheduleAnswersTheHalvesOfItsWords : Prop :=
  (∀ q : Request, q.op = 0x1 → decodeRequest q = .schedule q.tweak q.k0 q.k1 q.k2 q.k3) ∧
    ∀ (tweak : Tweak) (k0 k1 k2 k3 : Word60) (s : State), s.build.testView = true →
      ∃ (t1 t2 t3 t4 t5 t6 t7 t8 : Word60) (k : RoundKeys),
        t1 = expandTweak s.build.expandOrder tweak ^^^ k0 ∧ t2 = substituteWords s.sbox t1 ∧ t3 = sigmaLayer t2 ^^^ k1 ∧
          t4 = substituteWords s.sbox t3 ^^^ k2 ∧ t5 = permuteBits s.perm t4 ∧ t6 = substituteWords s.sbox t5 ∧
          t7 = sigmaLayer t6 ^^^ k3 ∧ t8 = substituteWords s.sbox t7 ∧
          t1.toNat = k.rk1.toNat * 2 ^ 30 + k.rk0.toNat ∧ t3.toNat = k.rk3.toNat * 2 ^ 30 + k.rk2.toNat ∧
          t6.toNat = k.rk5.toNat * 2 ^ 30 + k.rk4.toNat ∧ t8.toNat = k.rk7.toNat * 2 ^ 30 + k.rk6.toNat ∧
          exec (.schedule tweak k0 k1 k2 k3) s = .next (s.deliver 0x1 (.okRk k))

/-- R153: two different tweaks give different pairs (RK0, RK1), under either order of expand and whatever the tables are. -/
def Obligations.EveryTweakBitReachesTheFirstRoundKeys : Prop :=
  ∀ (t : SboxRom) (p : PermRom) (o : ExpandOrder) (tweak tweak' : Tweak) (k3 k2 k1 k0 : Word60), tweak ≠ tweak' →
    ((scheduleKeys t p o tweak k3 k2 k1 k0).rk0, (scheduleKeys t p o tweak k3 k2 k1 k0).rk1) ≠
      ((scheduleKeys t p o tweak' k3 k2 k1 k0).rk0, (scheduleKeys t p o tweak' k3 k2 k1 k0).rk1)

/-- R154: with everything else fixed, a change of k0 changes (RK0, RK1), of k1 (RK2, RK3), of k2 (RK4, RK5), of k3
(RK6, RK7); the last two for bijective tables. -/
def Obligations.EachKeyWordReachesItsRoundKeys : Prop :=
  ∀ (t : SboxRom) (p : PermRom) (o : ExpandOrder) (tweak : Tweak) (k3 k2 k1 k0 k' : Word60),
    (k0 ≠ k' →
      ((scheduleKeys t p o tweak k3 k2 k1 k0).rk0, (scheduleKeys t p o tweak k3 k2 k1 k0).rk1) ≠
        ((scheduleKeys t p o tweak k3 k2 k1 k').rk0, (scheduleKeys t p o tweak k3 k2 k1 k').rk1)) ∧
    (k1 ≠ k' →
      ((scheduleKeys t p o tweak k3 k2 k1 k0).rk2, (scheduleKeys t p o tweak k3 k2 k1 k0).rk3) ≠
        ((scheduleKeys t p o tweak k3 k2 k' k0).rk2, (scheduleKeys t p o tweak k3 k2 k' k0).rk3)) ∧
    (t.Bijective → p.Bijective → k2 ≠ k' →
      ((scheduleKeys t p o tweak k3 k2 k1 k0).rk4, (scheduleKeys t p o tweak k3 k2 k1 k0).rk5) ≠
        ((scheduleKeys t p o tweak k3 k' k1 k0).rk4, (scheduleKeys t p o tweak k3 k' k1 k0).rk5)) ∧
    (t.Bijective → p.Bijective → k3 ≠ k' →
      ((scheduleKeys t p o tweak k3 k2 k1 k0).rk6, (scheduleKeys t p o tweak k3 k2 k1 k0).rk7) ≠
        ((scheduleKeys t p o tweak k' k2 k1 k0).rk6, (scheduleKeys t p o tweak k' k2 k1 k0).rk7))

/-! ## The cipher (spec/43_cipher.md) -/

/-- R170, R171: ENCRYPT is `op` 0x0 and answers `Ok1(x_8)` in every build, where x_0 is the plaintext, rounds 0..6 are
non-final, round 7 is final, and round `i` uses `RK_i` of the schedule. -/
def Obligations.EncryptRunsEightRounds : Prop :=
  (∀ q : Request, q.op = 0x0 → decodeRequest q = .encrypt q.pt q.tweak q.k0 q.k1 q.k2 q.k3) ∧
    ∀ (pt : Block) (tweak : Tweak) (k0 k1 k2 k3 : Word60) (s : State),
      ∃ (k : RoundKeys) (rk : Fin 8 → RoundKey) (x : Fin 9 → Block),
        k = scheduleKeys s.sbox s.perm s.build.expandOrder tweak k3 k2 k1 k0 ∧
          rk = ![k.rk0, k.rk1, k.rk2, k.rk3, k.rk4, k.rk5, k.rk6, k.rk7] ∧ x 0 = pt ∧
          (∀ i : Fin 7, x i.succ.castSucc = roundNf s.sbox (x i.castSucc.castSucc) (rk i.castSucc)) ∧
          x 8 = roundFinal s.sbox (x 7) (rk 7) ∧
          exec (.encrypt pt tweak k0 k1 k2 k3) s = .next (s.deliver 0x0 (.ok1 (.w10 (x 8))))

/-- R176: for fixed keys and tweak and a bijective `SBOX`, encrypt is a bijection on the blocks, whatever `PERM` and the
order of expand are; the inverse rounds, from round 7 down to round 0 with the same round keys, give the plaintext back. -/
def Obligations.EncryptIsABijectionOnBlocks : Prop :=
  ∀ (t : SboxRom) (p : PermRom) (o : ExpandOrder) (tweak : Tweak) (k3 k2 k1 k0 : Word60), t.Bijective →
    (Function.Bijective fun pt => encryptBlock t p o pt k3 k2 k1 k0 tweak) ∧
      ∀ inverse : Half → Half, (∀ v, inverse (readSbox t v) = v) → ∀ pt : Block,
        undoRounds inverse (scheduleKeys t p o tweak k3 k2 k1 k0) (encryptBlock t p o pt k3 k2 k1 k0 tweak) = pt

/-- Program P2 of spec/95_test_vectors.md, for every state with the test view and every input: one SCHEDULE, seven ROUND and
one ROUND.F, each `y` fed back as the next `x`, give the block that ENCRYPT gives. Each `exec` starts from the same state
`s`, not from the state the one before it leaves; that a response does not depend on earlier requests is
`ResponseIsAFunctionOfTheRequest` with the frame `EveryInstructionOnlyDeliversOneResponse`. -/
def Obligations.EncryptionRebuiltFromTheTestView : Prop :=
  ∀ (pt : Block) (tweak : Tweak) (k0 k1 k2 k3 : Word60) (s : State), s.build.testView = true →
    ∃ (k : RoundKeys) (x1 x2 x3 x4 x5 x6 x7 ct : Block),
      exec (.schedule tweak k0 k1 k2 k3) s = .next (s.deliver 0x1 (.okRk k)) ∧
        exec (.round (pt.setWidth 60) k.rk0) s = .next (s.deliver 0x2 (.ok1 (.w10 x1))) ∧
        exec (.round (x1.setWidth 60) k.rk1) s = .next (s.deliver 0x2 (.ok1 (.w10 x2))) ∧
        exec (.round (x2.setWidth 60) k.rk2) s = .next (s.deliver 0x2 (.ok1 (.w10 x3))) ∧
        exec (.round (x3.setWidth 60) k.rk3) s = .next (s.deliver 0x2 (.ok1 (.w10 x4))) ∧
        exec (.round (x4.setWidth 60) k.rk4) s = .next (s.deliver 0x2 (.ok1 (.w10 x5))) ∧
        exec (.round (x5.setWidth 60) k.rk5) s = .next (s.deliver 0x2 (.ok1 (.w10 x6))) ∧
        exec (.round (x6.setWidth 60) k.rk6) s = .next (s.deliver 0x2 (.ok1 (.w10 x7))) ∧
        exec (.roundF (x7.setWidth 60) k.rk7) s = .next (s.deliver 0x3 (.ok1 (.w10 ct))) ∧
        exec (.encrypt pt tweak k0 k1 k2 k3) s = .next (s.deliver 0x0 (.ok1 (.w10 ct)))

/-- R28, R173: the response to a request is a function of the request and of `SBOX`, `PERM` and `EXPAND_ORDER` (and of
whether the build has the test view, R64): two states that agree on these answer alike, whatever else they hold. -/
def Obligations.ResponseIsAFunctionOfTheRequest : Prop :=
  ∀ (q : Request) (s s' : State), s.sbox = s'.sbox → s.perm = s'.perm → s.build.expandOrder = s'.build.expandOrder →
    s.build.testView = s'.build.testView →
    ∃ p : Response, exec (decodeRequest q) s = .next (s.deliver q.op p) ∧
      exec (decodeRequest q) s' = .next (s'.deliver q.op p)

/-! ## Errors (spec/60_exceptions.md) -/

/-- R65: `op` 0xC..0xF selects no operation: it answers `Err(RESERVED_OP)` and reads no other field; in a build without the
test view, 0x1..0xB are answered in the same way. -/
def Obligations.ReservedSelectorsAnswerReservedOp : Prop :=
  (∀ (q : Request) (s : State), 12 ≤ q.op.toNat →
    decodeRequest q = .reserved q.op ∧ exec (.reserved q.op) s = .next (s.deliver q.op (.err .reservedOp))) ∧
    ∀ (i : Instr) (s : State), s.build.testView = false → i.selector ≠ 0x0 →
      exec i s = .next (s.deliver i.selector (.err .reservedOp))

/-- R202: the causes and their codes, exactly: RESERVED_OP (code 1) for `op` 0xC..0xF and, in a build without the test view,
for 0x1..0xB; ROT_RANGE (code 2) for ROT5 with `r >= 5` and ROT60 with `r >= 60`; no other condition raises `Err`, and code
3 is never produced. -/
def Obligations.ErrorsAreExactlyTheListedCauses : Prop :=
  (ErrCause.code .reservedOp = 1 ∧ ErrCause.code .rotRange = 2 ∧ ∀ p : Response, p.pack.extractLsb' 1 2 ≠ 3) ∧
    ∀ (q : Request) (s : State), ∃ p : Response, exec (decodeRequest q) s = .next (s.deliver q.op p) ∧
      (p = .err .reservedOp ↔ 12 ≤ q.op.toNat ∨ (s.build.testView = false ∧ 1 ≤ q.op.toNat)) ∧
      (p = .err .rotRange ↔
        s.build.testView = true ∧ ((q.op = 0x6 ∧ 5 ≤ q.r.toNat) ∨ (q.op = 0x7 ∧ 60 ≤ q.r.toNat)))

/-- R201: where the response delivered is `Err`, nothing else of the state changed, the response is the failed request's
own, and the next request is answered as if the failed one had not been made. -/
def Obligations.AnErrorLeavesNoTrace : Prop :=
  ∀ (q q' : Request) (s t : State) (d : Delivery) (c : ErrCause),
    exec (decodeRequest q) s = .next t → t.delivered = s.delivered ++ [d] → d.resp = .err c →
      t = s.deliver q.op (.err c) ∧ t.sbox = s.sbox ∧ t.perm = s.perm ∧ t.build = s.build ∧ t.resetIn = s.resetIn ∧
        t.pending = s.pending ∧ t.offered = s.offered ∧ t.moves = s.moves ∧
        ∃ p : Response, exec (decodeRequest q') s = .next (s.deliver q'.op p) ∧
          exec (decodeRequest q') t = .next (t.deliver q'.op p)

/-- The frame of every instruction (R60, R63, R201, R224; the core has no register, flag, special register or data memory,
R20 to R23, R40): one response is appended to those delivered before, and everything else is unchanged. -/
def Obligations.EveryInstructionOnlyDeliversOneResponse : Prop :=
  ∀ (i : Instr) (s t : State), exec i s = .next t →
    t.sbox = s.sbox ∧ t.perm = s.perm ∧ t.build = s.build ∧ t.resetIn = s.resetIn ∧ t.pending = s.pending ∧
      t.offered = s.offered ∧ t.moves = s.moves ∧ ∃ d : Delivery, t.delivered = s.delivered ++ [d]

/-- R178, R225: the latency of a transaction is the build's `LATENCY` of its `op`, whatever the operands are. -/
def Obligations.LatencyDependsOnTheSelectorAlone : Prop :=
  ∀ (q q' : Request) (s : State), q.op = q'.op →
    ∃ (p p' : Response) (cycles : Nat), cycles = s.build.latency[q.op.toNat] ∧
      exec (decodeRequest q) s = .next { s with delivered := s.delivered ++ [{ resp := p, latency := cycles }] } ∧
      exec (decodeRequest q') s = .next { s with delivered := s.delivered ++ [{ resp := p', latency := cycles }] }

/-! ## Reset, the queue and the step (spec/10_state.md, spec/70_reset_and_hazards.md) -/

/-- R29, R221, R222: after reset the pending queue is empty and the ROMs hold the parameters `SBOX` and `PERM`; the core waits
for a request. (That the host presents nothing is the model's own reset value, DESIGN CHOICE, log entry 5, and that reset is
released is DEDUCED, log entry 10; the last clause rests on them.) -/
def Obligations.StateAfterReset : Prop :=
  State.reset.pending = [] ∧ (∀ v : Half, readSbox State.reset.sbox v = Config.sbox v) ∧
    (∀ i : Fin 60, readPerm State.reset.perm i = Config.perm i) ∧ step State.reset = .next State.reset

/-- R220, R221: while reset is asserted, no step accepts a request or delivers a response; releasing it leaves the queue empty
and the tables what they were; power-on empties the queue as a reset does. (That the model lets `powerOn` leave the level of
the reset input alone is its own choice, log entry 11, and is not stated here. That reset, release and power-on are moves is
DESIGN CHOICE, log entry 6; that a release empties the queue also where reset was not asserted is DESIGN CHOICE, log
entry 22.) -/
def Obligations.ResetHoldsTheInterface : Prop :=
  (∀ s : State, s.resetIn = true →
    ∃ t, step s = .next t ∧ t.delivered = s.delivered ∧ (t.pending = s.pending ∨ t.pending = [])) ∧
    ∀ (s : State) (rest : List Move),
      (s.moves = .assertReset :: rest → ∃ t, step s = .next t ∧ t.resetIn = true ∧ t.delivered = s.delivered) ∧
      (s.moves = .deassertReset :: rest →
        ∃ t, step s = .next t ∧ t.resetIn = false ∧ t.pending = [] ∧ t.delivered = s.delivered ∧
          t.sbox = s.sbox ∧ t.perm = s.perm ∧ t.build = s.build) ∧
      (s.moves = .powerOn :: rest →
        ∃ t, step s = .next t ∧ t.pending = [] ∧ t.delivered = s.delivered ∧
          t.sbox = s.sbox ∧ t.perm = s.perm ∧ t.build = s.build)

/-- R31, R230: a request is accepted at the tail of the queue while it holds fewer than `MAX_OUTSTANDING` requests; with the
queue full it is held, nothing else changes, and it is no error. (That `accept` is a move is the model's, log entry 6.) -/
def Obligations.AcceptJoinsTheTailOrHolds : Prop :=
  ∀ (s : State) (q : Request) (rest : List Request) (moves : List Move), s.resetIn = false →
    s.offered = q :: rest → s.moves = .accept :: moves →
    (s.pending.length < s.build.maxOutstanding →
      step s = .next { s with pending := s.pending ++ [q], offered := rest, moves := moves }) ∧
    (s.build.maxOutstanding ≤ s.pending.length → step s = .next { s with moves := moves })

/-- R230, R225: a core left to itself (log entry 7) with a non-empty queue answers its head, which frees a place, also when
the queue is full: it never deadlocks on its own. -/
def Obligations.ANonEmptyQueueIsAnswered : Prop :=
  ∀ (s : State) (q : Request) (rest : List Request), s.resetIn = false → s.pending = q :: rest → s.moves = [] →
    ∃ (t : State) (d : Delivery), step s = .next t ∧ t.pending = rest ∧ t.delivered = s.delivered ++ [d] ∧
      t.offered = s.offered

/-- R214: waking an idle core from gating changes nothing but that the move is made, so gating an idle core cannot change a
result. -/
def Obligations.WakingAnIdleCoreChangesNothing : Prop :=
  ∀ (s : State) (rest : List Move), Idle s → s.moves = .wake :: rest → step s = .next { s with moves := rest }

/-- R30, R31, R60: a step runs the decoded instruction. With reset released and a request `q` at the head of the queue, a step
in which the core moves is `exec` of the instruction `q` decodes to, in the state in which `q` has left the queue and the
move is made. (That answering is a move is the model's, DESIGN CHOICE, log entry 6; that the core answers before it accepts
when no move is listed is the model's, DESIGN CHOICE, log entry 7.) -/
def Obligations.StepRunsTheDecodedRequest : Prop :=
  ∀ (s : State) (q : Request) (queue : List Request), s.resetIn = false → s.pending = q :: queue →
    (s.moves = [] → step s = exec (decodeRequest q) { s with pending := queue }) ∧
      ∀ rest, s.moves = .respond :: rest →
        step s = exec (decodeRequest q) { s with pending := queue, moves := rest }

/-- The placed request word is what the very next step runs: `step` is then `exec` of the instruction the word decodes to,
in the state without the head of its queue and with reset released. -/
def Obligations.StepRunsThePlacedWord : Prop :=
  ∀ (s : State) (nbits w : Nat),
    step (s.withFetchWord nbits w) =
        exec (decodeWord (BitVec.ofNat 398 (w % 2 ^ nbits))) { s with pending := s.pending.tail, resetIn := false }

/-- The machine after reset satisfies the invariant, whatever its tables and parameters are (log entry 1: the constants have
by their types what R6 asks of them; log entry 10: the reset input is released). -/
def Obligations.ResetSatisfiesTheInvariant : Prop := Inv State.reset

/-- R6, R25, R31, R101: from every state that satisfies the invariant, a step leads to one that does: the tables stay
bijections, and the queue never holds more than `MAX_OUTSTANDING` requests. The invariant's last clause, that the queue is
empty while reset is asserted, is the model's (R220 and R221 name no edge: DESIGN CHOICE, log entry 10). -/
def Obligations.StepKeepsTheInvariant : Prop :=
  ∀ s t : State, Inv s → step s = .next t → Inv t

/-- R24, R25, R26: no step changes either table or a build-time parameter, resets included. -/
def Obligations.NoStepWritesATable : Prop :=
  ∀ s t : State, step s = .next t → t.sbox = s.sbox ∧ t.perm = s.perm ∧ t.build = s.build

/-- R200, R205: no state makes the machine stop: every step answers a next state. -/
def Obligations.EveryStepAnswersANextState : Prop := ∀ s : State, ∃ t, step s = .next t

/-- R28, R31, R46: a step that does not reset keeps the whole response stream: the responses already delivered, followed by
the response of each request on its way, in request order. No choice of moves changes, drops, repeats or reorders one. -/
def Obligations.StepKeepsTheResponseStream : Prop :=
  ∀ s t : State, (∀ m rest, s.moves = m :: rest → m.resets = false) → step s = .next t →
    t.responseStream = s.responseStream

/-- R46, R228: a run without resets that has ended has delivered exactly the responses of the requests of its first state, in
request order, whatever the interleaving of its moves (a list in the state: DESIGN CHOICE, log entry 6) and whatever
`LATENCY` and `MAX_OUTSTANDING` are. (When a run has ended is R228 with log entry 20, DESIGN CHOICE: a request presented and
not accepted counts as not sent. Runs with a reset, log entry 21, are left out by the hypothesis.) -/
def Obligations.EndedRunDeliveredTheResponseStream : Prop :=
  ∀ (n : Nat) (s t : State), NoReset s.moves → core.run n s = .next t → RunEnded t → t.delivered = s.responseStream

/-- R225, R228, R230: a core left to itself in a legal build ends its run within a bounded number of steps: two for each
request presented and one for each pending. Every accepted request is answered. (That it goes on by itself in this order is
DESIGN CHOICE, log entry 7; that a request presented counts as not sent until it is accepted is DESIGN CHOICE, log
entry 20.) -/
def Obligations.CoreAloneEndsItsRun : Prop :=
  ∀ s : State, s.build.Legal → s.resetIn = false → s.moves = [] →
    ∃ t, core.run (s.pending.length + 2 * s.offered.length) s = .next t ∧ RunEnded t ∧
      t.delivered = s.responseStream
end

