-- ==== Sys2Proof/Laws/Encoding.lean ====
section
/-! SUPPORT. The packed words and their bytes, bit by bit: what each definition of Decode.lean and Machine/Flags.lean
lays out, so that no later proof unfolds a concatenation of fields. -/

namespace Sys2Proof

/-- The bits of a packed request word, field by field from the least significant end (R67). -/
theorem getLsbD_pack (q : Request) (i : Nat) :
    q.pack.getLsbD i =
      if i < 4 then q.op.getLsbD i
      else if i < 14 then q.pt.getLsbD (i - 4)
      else if i < 62 then q.tweak.getLsbD (i - 14)
      else if i < 122 then q.k0.getLsbD (i - 62)
      else if i < 182 then q.k1.getLsbD (i - 122)
      else if i < 242 then q.k2.getLsbD (i - 182)
      else if i < 302 then q.k3.getLsbD (i - 242)
      else if i < 362 then q.x.getLsbD (i - 302)
      else if i < 392 then q.key.getLsbD (i - 362)
      else q.r.getLsbD (i - 392) := by
  have h : q.pack.getLsbD i =
      (q.r ++ q.key ++ q.x ++ q.k3 ++ q.k2 ++ q.k1 ++ q.k0 ++ q.tweak ++ q.pt ++ q.op).getLsbD i := rfl
  rw [h]
  repeat rw [BitVec.getLsbD_append]
  simp only [Nat.sub_sub]
  have next : ∀ (a b c : Nat) (x y z : Bool), a + b = c → ¬ i < a → (¬ i < c → y = z) →
      (if i - a < b then x else y) = if i < c then x else z := by
    intro a b c x y z hc ha hyz
    by_cases hi : i < c
    · rw [if_pos hi, if_pos (by omega)]
    · rw [if_neg hi, if_neg (by omega), hyz hi]
  by_cases h4 : i < 4
  · rw [if_pos h4, if_pos h4]
  · rw [if_neg h4, if_neg h4]
    refine next 4 10 14 _ _ _ rfl h4 fun h14 => next 14 48 62 _ _ _ rfl h14 fun h62 =>
      next 62 60 122 _ _ _ rfl h62 fun h122 => next 122 60 182 _ _ _ rfl h122 fun h182 =>
      next 182 60 242 _ _ _ rfl h182 fun h242 => next 242 60 302 _ _ _ rfl h242 fun h302 =>
      next 302 60 362 _ _ _ rfl h302 fun h362 => next 362 30 392 _ _ _ rfl h362 fun _ => rfl

/-- A request word has 50 bytes (R68). -/
@[simp] theorem length_wordToBytes (w : RequestWord) : (wordToBytes w).length = 50 := by
  simp [wordToBytes, requestBytes]

/-- The bits of the number a list of bytes stands for: bit `k` is bit `k mod 8` of byte `k / 8` (R68). -/
theorem testBit_bytesToNat (bs : List Byte) (k : Nat) :
    (bytesToNat bs).testBit k = ((bs[k / 8]?).getD 0).getLsbD (k % 8) := by
  induction bs generalizing k with
  | nil => simp [bytesToNat]
  | cons b bs ih =>
    rw [bytesToNat, Nat.add_comm, show (256 : Nat) = 2 ^ 8 from rfl, Nat.testBit_two_pow_mul_add _ b.isLt]
    split
    · rename_i h
      have hdiv : k / 8 = 0 := by omega
      simp [hdiv, Nat.mod_eq_of_lt h, BitVec.getLsbD]
    · rename_i h
      have hdiv : k / 8 = (k - 8) / 8 + 1 := by omega
      have hmod : k % 8 = (k - 8) % 8 := by omega
      rw [ih, hdiv, hmod, List.getElem?_cons_succ]

/-- The bits of the request word of a list of bytes (R68). -/
theorem getLsbD_bytesToWord (bs : List Byte) (k : Nat) :
    (bytesToWord bs).getLsbD k = (decide (k < 398) && ((bs[k / 8]?).getD 0).getLsbD (k % 8)) := by
  rw [bytesToWord, BitVec.getLsbD_ofNat, testBit_bytesToNat]

namespace Machine

/-- The bits of a packed response word: `err`, `cause`, `y`, then the round keys (R69). -/
theorem getLsbD_responsePack (p : Response) (i : Nat) :
    p.pack.getLsbD i =
      if i < 1 then p.errBit.getLsbD i
      else if i < 3 then p.causeBits.getLsbD (i - 1)
      else if i < 63 then p.yBits.getLsbD (i - 3)
      else p.rkBits.getLsbD (i - 63) := by
  have h : p.pack.getLsbD i = (p.rkBits ++ p.yBits ++ p.causeBits ++ p.errBit).getLsbD i := rfl
  rw [h]
  repeat rw [BitVec.getLsbD_append]
  simp only [Nat.sub_sub]
  by_cases h1 : i < 1
  · rw [if_pos h1, if_pos h1]
  · rw [if_neg h1, if_neg h1]
    by_cases h3 : i < 3
    · rw [if_pos h3, if_pos (by omega)]
    · rw [if_neg h3, if_neg (by omega)]
      by_cases h63 : i < 63
      · rw [if_pos h63, if_pos (by omega)]
      · rw [if_neg h63, if_neg (by omega)]

/-- The bits of the packed round keys, `rk0` lowest (R69). -/
theorem getLsbD_roundKeysPack (k : RoundKeys) (i : Nat) :
    k.pack.getLsbD i =
      if i < 30 then k.rk0.getLsbD i
      else if i < 60 then k.rk1.getLsbD (i - 30)
      else if i < 90 then k.rk2.getLsbD (i - 60)
      else if i < 120 then k.rk3.getLsbD (i - 90)
      else if i < 150 then k.rk4.getLsbD (i - 120)
      else if i < 180 then k.rk5.getLsbD (i - 150)
      else if i < 210 then k.rk6.getLsbD (i - 180)
      else k.rk7.getLsbD (i - 210) := by
  have h : k.pack.getLsbD i = (k.rk7 ++ k.rk6 ++ k.rk5 ++ k.rk4 ++ k.rk3 ++ k.rk2 ++ k.rk1 ++ k.rk0).getLsbD i := rfl
  rw [h]
  repeat rw [BitVec.getLsbD_append]
  simp only [Nat.sub_sub]
  have next : ∀ (a c : Nat) (x y z : Bool), a + 30 = c → ¬ i < a → (¬ i < c → y = z) →
      (if i - a < 30 then x else y) = if i < c then x else z := by
    intro a c x y z hc ha hyz
    by_cases hi : i < c
    · rw [if_pos hi, if_pos (by omega)]
    · rw [if_neg hi, if_neg (by omega), hyz hi]
  by_cases h30 : i < 30
  · rw [if_pos h30, if_pos h30]
  · rw [if_neg h30, if_neg h30]
    exact next 30 60 _ _ _ rfl h30 fun h60 => next 60 90 _ _ _ rfl h60 fun h90 =>
      next 90 120 _ _ _ rfl h90 fun h120 => next 120 150 _ _ _ rfl h120 fun h150 =>
      next 150 180 _ _ _ rfl h150 fun h180 => next 180 210 _ _ _ rfl h180 fun _ => rfl

end Machine

end Sys2Proof
end

