-- ==== Sys2Proof/Laws/State.lean ====
section
/-! SUPPORT. The small lemmas of the state's updates: one per field per update, so that no later proof unfolds a record
update; and what the one conditional update, accepting a request, can do. -/

namespace Sys2Proof.Machine

section deliver

variable (s : State) (op : Selector) (p : Response)

@[simp] theorem State.deliver_sbox : (s.deliver op p).sbox = s.sbox := rfl
@[simp] theorem State.deliver_perm : (s.deliver op p).perm = s.perm := rfl
@[simp] theorem State.deliver_build : (s.deliver op p).build = s.build := rfl
@[simp] theorem State.deliver_resetIn : (s.deliver op p).resetIn = s.resetIn := rfl
@[simp] theorem State.deliver_pending : (s.deliver op p).pending = s.pending := rfl
@[simp] theorem State.deliver_offered : (s.deliver op p).offered = s.offered := rfl
@[simp] theorem State.deliver_moves : (s.deliver op p).moves = s.moves := rfl
@[simp] theorem State.deliver_delivered :
    (s.deliver op p).delivered = s.delivered ++ [{ resp := p, latency := s.build.latency[op.toNat] }] := rfl

end deliver

section withPending

variable (s : State) (l : List Request)

@[simp] theorem State.withPending_sbox : (s.withPending l).sbox = s.sbox := rfl
@[simp] theorem State.withPending_perm : (s.withPending l).perm = s.perm := rfl
@[simp] theorem State.withPending_build : (s.withPending l).build = s.build := rfl
@[simp] theorem State.withPending_resetIn : (s.withPending l).resetIn = s.resetIn := rfl
@[simp] theorem State.withPending_pending : (s.withPending l).pending = l := rfl
@[simp] theorem State.withPending_offered : (s.withPending l).offered = s.offered := rfl
@[simp] theorem State.withPending_moves : (s.withPending l).moves = s.moves := rfl
@[simp] theorem State.withPending_delivered : (s.withPending l).delivered = s.delivered := rfl

end withPending

section withMoves

variable (s : State) (l : List Move)

@[simp] theorem State.withMoves_sbox : (s.withMoves l).sbox = s.sbox := rfl
@[simp] theorem State.withMoves_perm : (s.withMoves l).perm = s.perm := rfl
@[simp] theorem State.withMoves_build : (s.withMoves l).build = s.build := rfl
@[simp] theorem State.withMoves_resetIn : (s.withMoves l).resetIn = s.resetIn := rfl
@[simp] theorem State.withMoves_pending : (s.withMoves l).pending = s.pending := rfl
@[simp] theorem State.withMoves_offered : (s.withMoves l).offered = s.offered := rfl
@[simp] theorem State.withMoves_moves : (s.withMoves l).moves = l := rfl
@[simp] theorem State.withMoves_delivered : (s.withMoves l).delivered = s.delivered := rfl

end withMoves

section present

variable (s : State) (q : Request)

@[simp] theorem State.present_sbox : (s.present q).sbox = s.sbox := rfl
@[simp] theorem State.present_perm : (s.present q).perm = s.perm := rfl
@[simp] theorem State.present_build : (s.present q).build = s.build := rfl
@[simp] theorem State.present_resetIn : (s.present q).resetIn = s.resetIn := rfl
@[simp] theorem State.present_pending : (s.present q).pending = s.pending := rfl
@[simp] theorem State.present_offered : (s.present q).offered = s.offered ++ [q] := rfl
@[simp] theorem State.present_moves : (s.present q).moves = s.moves := rfl
@[simp] theorem State.present_delivered : (s.present q).delivered = s.delivered := rfl

end present

section flush

variable (s : State)

@[simp] theorem State.flush_sbox : s.flush.sbox = s.sbox := rfl
@[simp] theorem State.flush_perm : s.flush.perm = s.perm := rfl
@[simp] theorem State.flush_build : s.flush.build = s.build := rfl
@[simp] theorem State.flush_resetIn : s.flush.resetIn = s.resetIn := rfl
@[simp] theorem State.flush_pending : s.flush.pending = [] := rfl
@[simp] theorem State.flush_offered : s.flush.offered = s.offered := rfl
@[simp] theorem State.flush_moves : s.flush.moves = s.moves := rfl
@[simp] theorem State.flush_delivered : s.flush.delivered = s.delivered := rfl

end flush

section withResetIn

variable (s : State) (level : Bool)

@[simp] theorem State.withResetIn_sbox : (s.withResetIn level).sbox = s.sbox := rfl
@[simp] theorem State.withResetIn_perm : (s.withResetIn level).perm = s.perm := rfl
@[simp] theorem State.withResetIn_build : (s.withResetIn level).build = s.build := rfl
@[simp] theorem State.withResetIn_resetIn : (s.withResetIn level).resetIn = level := rfl
@[simp] theorem State.withResetIn_pending : (s.withResetIn level).pending = s.pending := rfl
@[simp] theorem State.withResetIn_offered : (s.withResetIn level).offered = s.offered := rfl
@[simp] theorem State.withResetIn_moves : (s.withResetIn level).moves = s.moves := rfl
@[simp] theorem State.withResetIn_delivered : (s.withResetIn level).delivered = s.delivered := rfl

end withResetIn

section acceptOldest

variable (s : State)

/-- Accepting either moves the oldest presented request to the tail of the queue or changes nothing. -/
theorem State.acceptOldest_cases :
    (∃ q rest, s.canAccept = true ∧ s.offered = q :: rest ∧
      s.acceptOldest = { s with pending := s.pending ++ [q], offered := rest }) ∨ s.acceptOldest = s := by
  unfold State.acceptOldest
  split
  · exact .inr rfl
  · rename_i q rest ho
    split
    · rename_i hc
      exact .inl ⟨q, rest, hc, ho, rfl⟩
    · exact .inr rfl

/-- The interface accepts exactly when reset is not asserted and the queue has a place. -/
theorem State.canAccept_iff :
    s.canAccept = true ↔ s.resetIn = false ∧ s.pending.length < s.build.maxOutstanding := by
  simp [State.canAccept]

@[simp] theorem State.acceptOldest_sbox : s.acceptOldest.sbox = s.sbox := by
  rcases s.acceptOldest_cases with ⟨_, _, _, _, h⟩ | h <;> simp only [h]

@[simp] theorem State.acceptOldest_perm : s.acceptOldest.perm = s.perm := by
  rcases s.acceptOldest_cases with ⟨_, _, _, _, h⟩ | h <;> simp only [h]

@[simp] theorem State.acceptOldest_build : s.acceptOldest.build = s.build := by
  rcases s.acceptOldest_cases with ⟨_, _, _, _, h⟩ | h <;> simp only [h]

@[simp] theorem State.acceptOldest_resetIn : s.acceptOldest.resetIn = s.resetIn := by
  rcases s.acceptOldest_cases with ⟨_, _, _, _, h⟩ | h <;> simp only [h]

@[simp] theorem State.acceptOldest_moves : s.acceptOldest.moves = s.moves := by
  rcases s.acceptOldest_cases with ⟨_, _, _, _, h⟩ | h <;> simp only [h]

@[simp] theorem State.acceptOldest_delivered : s.acceptOldest.delivered = s.delivered := by
  rcases s.acceptOldest_cases with ⟨_, _, _, _, h⟩ | h <;> simp only [h]

end acceptOldest

end Sys2Proof.Machine
end

