-- ==== Sys2Proof/Laws/Exec.lean ====
section
/-! SUPPORT. Everything an instruction, a move and a step can do, once: later proofs cite these lemmas and unfold no
meaning. -/

namespace Sys2Proof.Machine

/-- An instruction completes, and its one effect is the delivery of its response (R60, R201). -/
theorem exec_eq_deliver (i : Instr) (s : State) : exec i s = .next (s.deliver i.selector (s.responseTo i)) := by
  cases i <;> rfl

/-- The selector decoding started from is the decoded instruction's. -/
theorem selector_decodeRequest (q : Request) : (decodeRequest q).selector = q.op := by
  unfold decodeRequest
  split <;> exact BitVec.eq_of_toNat_eq (by simp_all [Instr.selector])

/-- Answering a request delivers what the request stream promises for it. -/
theorem exec_decodeRequest (q : Request) (s : State) :
    exec (decodeRequest q) s = .next { s with delivered := s.delivered ++ [s.deliveryFor q] } := by
  rw [exec_eq_deliver]
  simp only [State.deliver, State.deliveryFor, selector_decodeRequest]

/-- What answering the head of the queue can do: nothing while reset is asserted or the queue is empty; otherwise the head
leaves the queue and its response is delivered. -/
theorem answerHead_cases (s : State) :
    (answerHead s = .next s ∧ (s.resetIn = true ∨ s.pending = [])) ∨
      ∃ q rest, s.resetIn = false ∧ s.pending = q :: rest ∧
        answerHead s = .next { s with pending := rest, delivered := s.delivered ++ [s.deliveryFor q] } := by
  unfold answerHead
  split
  · rename_i hr
    exact .inl ⟨rfl, .inl hr⟩
  · rename_i hr
    cases hp : s.pending with
    | nil => exact .inl ⟨rfl, .inr rfl⟩
    | cons q rest =>
      exact .inr ⟨q, rest, by simpa using hr, rfl, exec_decodeRequest q (s.withPending rest)⟩

/-- What a core left to itself can do: answer, accept, or wait. -/
theorem coreAlone_cases (s : State) :
    (coreAlone s = answerHead s ∧ s.pending ≠ []) ∨ (coreAlone s = .next s.acceptOldest ∧ s.pending = []) := by
  unfold coreAlone
  cases s.pending with
  | nil => exact .inr ⟨rfl, rfl⟩
  | cons q rest => exact .inl ⟨rfl, by simp⟩

/-- What a step is: the first chosen move, or the core's own. -/
theorem step_cases (s : State) :
    (s.moves = [] ∧ step s = coreAlone s) ∨ ∃ m rest, s.moves = m :: rest ∧ step s = makeMove m (s.withMoves rest) := by
  unfold step
  cases h : s.moves with
  | nil => exact .inl ⟨rfl, rfl⟩
  | cons m rest => exact .inr ⟨m, rest, rfl, rfl⟩

end Sys2Proof.Machine
end

