-- ==== Sys2Proof/Laws/Ops.lean ====
section
/-! SUPPORT. What the shared operations on words do, once: reading back a written bit or slot, and the slot and bit
descriptions of the layer functions of spec/42_schedule.md. -/

namespace Sys2Proof.Machine

/-- Bit `b` of slot `j` is bit `5j+b` of the word (R141). -/
theorem getLsbD_slot (w : Word60) (j b : Nat) : (slot w j).getLsbD b = (decide (b < 5) && w.getLsbD (5 * j + b)) := by
  simp [slot]

/-- Bit `b` of nibble `j` is bit `4j+b` of the tweak (R142). -/
theorem getLsbD_nibble (tweak : Tweak) (j b : Nat) :
    (nibble tweak j).getLsbD b = (decide (b < 4) && tweak.getLsbD (4 * j + b)) := by
  simp [nibble]

/-- Bit `j` of a left rotation is bit `j - r` of the value, taken mod the width (R105). -/
theorem getLsbD_rotate5 (v : Half) (r : Fin 5) (j : Nat) (hj : j < 5) :
    (rotate5 v r).getLsbD j = v.getLsbD ((j + 5 - r.val) % 5) := by
  have hr := r.isLt
  rw [rotate5, BitVec.getLsbD_rotateLeft, Nat.mod_eq_of_lt hr]
  by_cases h : j < r.val
  · rw [decide_eq_true h, cond_true, Nat.mod_eq_of_lt (by omega)]
    congr 1
    omega
  · rw [decide_eq_false h, cond_false, decide_eq_true hj, Bool.true_and, show j + 5 - r.val = j - r.val + 5 by omega,
      Nat.add_mod_right, Nat.mod_eq_of_lt (by omega)]

/-- Bit `j` of a left rotation is bit `j - r` of the value, taken mod the width (R110). -/
theorem getLsbD_rotate60 (v : Word60) (r : Fin 60) (j : Nat) (hj : j < 60) :
    (rotate60 v r).getLsbD j = v.getLsbD ((j + 60 - r.val) % 60) := by
  have hr := r.isLt
  rw [rotate60, BitVec.getLsbD_rotateLeft, Nat.mod_eq_of_lt hr]
  by_cases h : j < r.val
  · rw [decide_eq_true h, cond_true, Nat.mod_eq_of_lt (by omega)]
    congr 1
    omega
  · rw [decide_eq_false h, cond_false, decide_eq_true hj, Bool.true_and, show j + 60 - r.val = j - r.val + 60 by omega,
      Nat.add_mod_right, Nat.mod_eq_of_lt (by omega)]

/-- A written bit reads back, and every other bit reads as before. -/
theorem getLsbD_setBit (v : Word60) (j k : Nat) (b : Bool) (hk : k < 60) :
    (setBit v j b).getLsbD k = if k = j then b else v.getLsbD k := by
  unfold setBit
  by_cases hkj : k = j
  · subst hkj
    cases b <;> simp [hk]
  · by_cases hlt : k < j
    · cases b <;> simp [hk, hkj, hlt]
    · have hsub : k - j ≠ 0 := by omega
      cases b <;> simp [hk, hkj, hlt, hsub]

/-- The bits of a word after a slot is written. -/
theorem getLsbD_setSlot (w : Word60) (j k : Nat) (v : Half) (hk : k < 60) :
    (setSlot w j v).getLsbD k = if 5 * j ≤ k ∧ k < 5 * j + 5 then v.getLsbD (k - 5 * j) else w.getLsbD k := by
  have hmask : ∀ i, (0x1F#60).getLsbD i = decide (i < 5) := by
    intro i
    by_cases hi : i < 60
    · interval_cases i <;> decide
    · simp [BitVec.getLsbD_of_ge _ _ (Nat.le_of_not_lt hi)]; omega
  unfold setSlot
  simp only [BitVec.getLsbD_or, BitVec.getLsbD_and, BitVec.getLsbD_not, BitVec.getLsbD_shiftLeft, BitVec.getLsbD_setWidth,
    hmask]
  by_cases h1 : 5 * j ≤ k
  · by_cases h2 : k < 5 * j + 5
    · have h3 : k - 5 * j < 5 := by omega
      have h4 : k - 5 * j < 60 := by omega
      simp [h1, h2, hk, h3, h4, Nat.not_lt.mpr h1]
    · have h3 : ¬ k - 5 * j < 5 := by omega
      have h4 : v.getLsbD (k - 5 * j) = false := BitVec.getLsbD_of_ge _ _ (by omega)
      simp [h1, h2, hk, h3, h4, Nat.not_lt.mpr h1]
  · have h3 : k < 5 * j := by omega
    simp [h1, h3, hk]

/-- A written slot reads back. -/
theorem slot_setSlot_same (w : Word60) (j : Nat) (v : Half) (hj : j < 12) : slot (setSlot w j v) j = v := by
  apply BitVec.eq_of_getLsbD_eq
  intro b hb
  rw [getLsbD_slot, getLsbD_setSlot _ _ _ _ (by omega)]
  simp [hb]

/-- Writing a slot leaves every other slot alone. -/
theorem slot_setSlot_other (w : Word60) (i j : Nat) (v : Half) (hi : i < 12) (hij : i ≠ j) :
    slot (setSlot w j v) i = slot w i := by
  apply BitVec.eq_of_getLsbD_eq
  intro b hb
  rw [getLsbD_slot, getLsbD_slot, getLsbD_setSlot _ _ _ _ (by omega)]
  simp only [hb, decide_true, Bool.true_and]
  rw [if_neg (by omega)]

/-- Two words with the same twelve slots are the same word (R141). -/
theorem eq_of_slot_eq (a b : Word60) (h : ∀ j < 12, slot a j = slot b j) : a = b := by
  apply BitVec.eq_of_getLsbD_eq
  intro k hk
  have hslot := congrArg (fun v => BitVec.getLsbD v (k % 5)) (h (k / 5) (by omega))
  simp only [getLsbD_slot] at hslot
  have hlt : k % 5 < 5 := Nat.mod_lt _ (by decide)
  simpa [hlt, Nat.div_add_mod] using hslot

/-- Two tweaks with the same twelve nibbles are the same tweak (R142). -/
theorem eq_of_nibble_eq (a b : Tweak) (h : ∀ j < 12, nibble a j = nibble b j) : a = b := by
  apply BitVec.eq_of_getLsbD_eq
  intro k hk
  have hn := congrArg (fun v => BitVec.getLsbD v (k % 4)) (h (k / 4) (by omega))
  simp only [getLsbD_nibble] at hn
  have hlt : k % 4 < 4 := Nat.mod_lt _ (by decide)
  simpa [hlt, Nat.div_add_mod] using hn

/-- Slots that a run of slot writes does not touch read as before. -/
theorem slot_foldl_setSlot_other (dst : Nat → Nat) (f : Nat → Half) (js : List Nat) (w : Word60) (k : Nat) (hk : k < 12)
    (h : ∀ j ∈ js, dst j ≠ k) : slot (js.foldl (fun w j => setSlot w (dst j) (f j)) w) k = slot w k := by
  induction js generalizing w with
  | nil => rfl
  | cons j js ih =>
    rw [List.foldl_cons, ih _ fun i hi => h i (List.mem_cons_of_mem _ hi)]
    exact slot_setSlot_other _ _ _ _ hk (h j List.mem_cons_self).symm

/-- A run of slot writes to different slots leaves in each what was written there. -/
theorem slot_foldl_setSlot (dst : Nat → Nat) (f : Nat → Half) (js : List Nat) (w : Word60) (hlt : ∀ j ∈ js, dst j < 12)
    (hinj : js.Pairwise fun i j => dst i ≠ dst j) (j : Nat) (hj : j ∈ js) :
    slot (js.foldl (fun w j => setSlot w (dst j) (f j)) w) (dst j) = f j := by
  induction js generalizing w with
  | nil => cases hj
  | cons i js ih =>
    rw [List.pairwise_cons] at hinj
    rw [List.foldl_cons]
    rcases List.mem_cons.mp hj with rfl | hmem
    · rw [slot_foldl_setSlot_other dst f js _ _ (hlt j List.mem_cons_self) fun k hk => (hinj.1 k hk).symm]
      exact slot_setSlot_same _ _ _ (hlt j List.mem_cons_self)
    · exact ih _ (fun k hk => hlt k (List.mem_cons_of_mem _ hk)) hinj.2 hmem

/-- Nibble `j`, zero-extended, is what expand leaves in its slot (R143). -/
theorem slot_expandTweak (o : ExpandOrder) (tweak : Tweak) (j : Nat) (hj : j < 12) :
    slot (expandTweak o tweak) (ExpandOrder.slotOf o j) = (nibble tweak j).setWidth 5 := by
  refine slot_foldl_setSlot (ExpandOrder.slotOf o) (fun j => (nibble tweak j).setWidth 5) (List.range 12) 0 ?_ ?_ j
    (List.mem_range.mpr hj)
  · cases o <;> decide
  · cases o <;> decide

/-- Slot `j` of substituteWords is the S-box of slot `j` (R144). -/
theorem slot_substituteWords (t : SboxRom) (w : Word60) (j : Nat) (hj : j < 12) :
    slot (substituteWords t w) j = substitute t (slot w j) :=
  slot_foldl_setSlot id (fun j => substitute t (slot w j)) (List.range 12) 0 (by decide) (by decide) j
    (List.mem_range.mpr hj)

/-- Bits that a run of bit writes does not touch read as before. -/
theorem getLsbD_foldl_setBit_other (dst : Fin 60 → Fin 60) (f : Fin 60 → Bool) (is : List (Fin 60)) (v : Word60)
    (k : Fin 60) (h : ∀ i ∈ is, dst i ≠ k) :
    (is.foldl (fun out i => setBit out (dst i).val (f i)) v).getLsbD k.val = v.getLsbD k.val := by
  induction is generalizing v with
  | nil => rfl
  | cons i is ih =>
    rw [List.foldl_cons, ih _ fun j hj => h j (List.mem_cons_of_mem _ hj), getLsbD_setBit _ _ _ _ k.isLt, if_neg]
    exact fun hk => h i List.mem_cons_self (Fin.ext hk.symm)

/-- A run of bit writes to different positions leaves in each what was written there. -/
theorem getLsbD_foldl_setBit (dst : Fin 60 → Fin 60) (f : Fin 60 → Bool) (is : List (Fin 60)) (v : Word60)
    (hinj : is.Pairwise fun i j => dst i ≠ dst j) (i : Fin 60) (hi : i ∈ is) :
    (is.foldl (fun out i => setBit out (dst i).val (f i)) v).getLsbD (dst i).val = f i := by
  induction is generalizing v with
  | nil => cases hi
  | cons j is ih =>
    rw [List.pairwise_cons] at hinj
    rw [List.foldl_cons]
    rcases List.mem_cons.mp hi with rfl | hmem
    · rw [getLsbD_foldl_setBit_other dst f is _ _ fun k hk => (hinj.1 k hk).symm,
        getLsbD_setBit _ _ _ _ (dst i).isLt, if_pos rfl]
    · exact ih _ hinj.2 hmem

/-- Input bit `i` is output bit `PERM[i]` of permuteBits, for a table that is a bijection (R146). -/
theorem getLsbD_permuteBits (p : PermRom) (hp : p.Bijective) (w : Word60) (i : Fin 60) :
    (permuteBits p w).getLsbD (readPerm p i).val = w.getLsbD i.val := by
  refine getLsbD_foldl_setBit (readPerm p) (fun i => w.getLsbD i.val) (List.finRange 60) 0 ?_ i (List.mem_finRange i)
  exact (List.nodup_finRange 60).imp fun hne heq => hne (hp _ _ heq)

/-- The bits of a joined block: `r` below, `l` above (R126). -/
theorem getLsbD_joinHalves (l r : Half) (b : Nat) :
    (joinHalves l r).getLsbD b = if b < 5 then r.getLsbD b else l.getLsbD (b - 5) :=
  BitVec.getLsbD_append

/-- The high half of a joined block (R126). -/
@[simp] theorem leftHalf_joinHalves (l r : Half) : leftHalf (joinHalves l r) = l := by
  apply BitVec.eq_of_getLsbD_eq
  intro b hb
  rw [leftHalf, BitVec.getLsbD_extractLsb', getLsbD_joinHalves]
  simp [hb]

/-- The low half of a joined block (R126). -/
@[simp] theorem rightHalf_joinHalves (l r : Half) : rightHalf (joinHalves l r) = r := by
  apply BitVec.eq_of_getLsbD_eq
  intro b hb
  rw [rightHalf, BitVec.getLsbD_extractLsb', getLsbD_joinHalves]
  simp [hb]

/-- A block is the join of its halves (R126). -/
@[simp] theorem joinHalves_halves (x : Block) : joinHalves (leftHalf x) (rightHalf x) = x := by
  apply BitVec.eq_of_getLsbD_eq
  intro b hb
  rw [getLsbD_joinHalves, leftHalf, rightHalf, BitVec.getLsbD_extractLsb', BitVec.getLsbD_extractLsb']
  by_cases h5 : b < 5
  · simp [h5]
  · have h6 : b - 5 < 5 := by omega
    have h7 : 5 + (b - 5) = b := by omega
    simp [h5, h6, h7]

end Sys2Proof.Machine
end

