-- ==== Sys2Proof/Laws/PerInstr.lean ====
section
/-! SUPPORT. Facts about every instruction as syntax, one lemma per constructor. -/

namespace Sys2Proof.Laws

/-- The request an instruction is encoded to decodes to that instruction (R62, R64, R65). -/
def RequestRoundTrip.Statement (i : Instr) : Prop := i.wellFormed = true → decodeRequest (encodeRequest i) = i

namespace RequestRoundTrip

theorem encrypt (pt : Block) (tweak : Tweak) (k0 k1 k2 k3 : Word60) : Statement (.encrypt pt tweak k0 k1 k2 k3) :=
  fun _ => rfl

theorem schedule (tweak : Tweak) (k0 k1 k2 k3 : Word60) : Statement (.schedule tweak k0 k1 k2 k3) := fun _ => rfl

theorem round (x : Word60) (key : RoundKey) : Statement (.round x key) := fun _ => rfl

theorem roundF (x : Word60) (key : RoundKey) : Statement (.roundF x key) := fun _ => rfl

theorem g (x : Word60) (key : RoundKey) : Statement (.g x key) := fun _ => rfl

theorem sbox (x : Word60) : Statement (.sbox x) := fun _ => rfl

theorem rot5 (x : Word60) (r : Amount) : Statement (.rot5 x r) := fun _ => rfl

theorem rot60 (x : Word60) (r : Amount) : Statement (.rot60 x r) := fun _ => rfl

theorem expand (tweak : Tweak) : Statement (.expand tweak) := fun _ => rfl

theorem subwords (x : Word60) : Statement (.subwords x) := fun _ => rfl

theorem sigma (x : Word60) : Statement (.sigma x) := fun _ => rfl

theorem permbits (x : Word60) : Statement (.permbits x) := fun _ => rfl

theorem reserved (op : Selector) : Statement (.reserved op) := by
  have h : ∀ op : Selector, (Instr.reserved op).wellFormed = true →
      decodeRequest (encodeRequest (.reserved op)) = .reserved op := by decide
  exact h op

end RequestRoundTrip

end Sys2Proof.Laws
end

