-- ==== Sys2Proof/Tests/Slice0.lean ====
section
/-! SUPPORT. The model's own tests. Every expected value is taken from spec/95_test_vectors.md (its section is named at the
test) or worked out by hand from the rule named; the test instances I0 and I1 are the spec's (its Part 2), not the
hardware's tables. The witnesses at the end show that the hypotheses of each statement can be met. -/

namespace Sys2Proof.Tests

open Sys2Proof Sys2Proof.Machine

set_option Elab.async false

/-! ## The test instances (95_test_vectors.md, Part 2) -/

/-- I1: `SBOX[v] = (7v + 3) mod 32`. -/
def sboxI1 : SboxRom := Vector.ofFn fun v => BitVec.ofNat 5 (7 * v.val + 3)

/-- I1: `PERM[i] = 7i mod 60`. -/
def permI1 : PermRom := Vector.ofFn fun i => ⟨7 * i.val % 60, Nat.mod_lt _ (by decide)⟩

/-- I0: `SBOX[v] = v`. -/
def sboxI0 : SboxRom := Vector.ofFn fun v => BitVec.ofNat 5 v.val

/-- I0: `PERM[i] = i`. -/
def permI0 : PermRom := Vector.ofFn fun i => i

/-- A build for tests: two places in the queue, latency `op + 1`. -/
def testBuild (o : ExpandOrder) (testView : Bool) : Build where
  expandOrder := o
  latency := Vector.ofFn fun op => op.val + 1
  maxOutstanding := 2
  testView := testView

/-- The machine after reset with the tables of I1. -/
def stateI1 : State :=
  { State.reset with sbox := sboxI1, perm := permI1, build := testBuild .preserve true }

/-- The same with the tables of I0. -/
def stateI0 : State := { stateI1 with sbox := sboxI0, perm := permI0 }

/-- The same with `EXPAND_ORDER` = REVERSE. -/
def stateReverse : State := { stateI1 with build := testBuild .reverse true }

/-- The same in a build without the test view. -/
def statePublic : State := { stateI1 with build := testBuild .preserve false }

/-- The response an answer delivered last. -/
def lastResponse (a : Answer) : Option Response :=
  match a with
  | .next s => (s.delivered.getLast?).map fun d => d.resp
  | .fault _ => none
  | .refused _ => none

/-- A request for SBOX 1. -/
def sboxRequest : Request := { Request.ofSelector 0x5 with x := 0x1 }

/-! ## WellFormed: an ill-formed term for each check, refused -/

theorem test_reserved_selector_below_C_is_ill_formed : (Instr.reserved 0xB).wellFormed = false := by decide

theorem test_out_of_range_amount_is_well_formed : (Instr.rot5 0x1 0x3F).wellFormed = true := by decide

theorem test_constant_sbox_is_refused : ¬ WellFormedBuild (Vector.replicate 32 0) permI1 (testBuild .preserve true) :=
  fun h => absurd (h.1 0 1 (by decide +kernel)) (by decide)

theorem test_constant_perm_is_refused : ¬ WellFormedBuild sboxI1 (Vector.replicate 60 0) (testBuild .preserve true) :=
  fun h => absurd (h.2.1 0 1 (by decide +kernel)) (by decide)

theorem test_no_place_in_the_queue_is_refused :
    ¬ WellFormedBuild sboxI1 permI1 { testBuild .preserve true with maxOutstanding := 0 } :=
  fun h => absurd h.2.2 (by decide)

theorem test_I1_is_a_legal_instance : WellFormedBuild sboxI1 permI1 (testBuild .preserve true) := by decide +kernel

/-! ## Decoding: a word written out from R64 and R67 for every constructor -/

theorem test_decode_encrypt :
    decodeWord 0x2FDA19ED7BA6345E476C52F5025DB1286E0651B95A0AC0A3FC676249D72B1F641FF09E274080 =
      .encrypt 0x8 0x7D907FC2789D 0x28FF19D89275CAC 0xA1B81946E5682B0 0x91DB14BD40976C4 0xBF6867B5EE98D17 := by
  decide +kernel

theorem test_decode_schedule :
    decodeWord 0x2FDA19ED7BA6345E476C52F5025DB1286E0651B95A0AC0A3FC676249D72B1F641FF09E274001 =
      .schedule 0x7D907FC2789D 0x28FF19D89275CAC 0xA1B81946E5682B0 0x91DB14BD40976C4 0xBF6867B5EE98D17 := by
  decide +kernel

theorem test_decode_round :
    decodeWord 0x4413F604000000000000020000000000000000000000000000000000000000000000000000000000000000000000000002 =
      .round 0x8 0x1104FD81 := by decide +kernel

theorem test_decode_roundF :
    decodeWord 0xC5D3F0780000000000000E4000000000000000000000000000000000000000000000000000000000000000000000000003 =
      .roundF 0x39 0x3174FC1E := by decide +kernel

theorem test_decode_g :
    decodeWord 0x48D159C000000000000054000000000000000000000000000000000000000000000000000000000000000000000000004 =
      .g 0x15 0x1234567 := by decide +kernel

theorem test_decode_sbox :
    decodeWord 0x4000000000000000000000000000000000000000000000000000000000000000000000000005 = .sbox 0x1 := by
  decide +kernel

theorem test_decode_rot5 :
    decodeWord 0x30000000000000000000002C000000000000000000000000000000000000000000000000000000000000000000000000006 =
      .rot5 0xB 0x3 := by decide +kernel

theorem test_decode_rot60 :
    decodeWord 0x3C00000000000000000000004000000000000000000000000000000000000000000000000000000000000000000000000007 =
      .rot60 0x1 0x3C := by decide +kernel

theorem test_decode_expand : decodeWord 0x1F641FF09E274008 = .expand 0x7D907FC2789D := by decide +kernel

theorem test_decode_subwords :
    decodeWord 0x4EB46994413F604000000000000000000000000000000000000000000000000000000000000000000000000009 =
      .subwords 0x13AD1A65104FD81 := by decide +kernel

theorem test_decode_sigma :
    decodeWord 0x225EE9F2DCC5CBA800000000000000000000000000000000000000000000000000000000000000000000000000A =
      .sigma 0x897BA7CB73172EA := by decide +kernel

theorem test_decode_permbits :
    decodeWord 0x36D0978414DE9F3400000000000000000000000000000000000000000000000000000000000000000000000000B =
      .permbits 0xDB425E10537A7CD := by decide +kernel

theorem test_decode_reserved :
    decodeWord 0x7C00000000000000000000000000000000000000000000000000000000000000000000000000F = .reserved 0xF := by
  decide +kernel

/-- R68: a request of SBOX 1 as bytes; `x` starts at bit 302, which is bit 6 of byte 37. -/
theorem test_decode_bytes :
    decodeBytes ([0x05] ++ List.replicate 36 0 ++ [0x40] ++ List.replicate 11 0 ++ [0xC0, 0xAA]) =
      .ok (.sbox 0x1, [0xAA]) := by decide +kernel

theorem test_decode_too_few_bytes : decodeBytes (List.replicate 49 0) = .error (.incompleteRequest 49) := by decide +kernel

theorem test_decode_table_word : decodeTableWord 8 0x16 = some (.rot5 0x0 0x0) := by decide +kernel

/-! ## Responses, packed (95_test_vectors.md 3.13) -/

theorem test_pack_error : (Response.err .rotRange).pack = 0x5 ∧ (Response.err .reservedOp).pack = 0x3 := by
  decide +kernel

theorem test_pack_round_keys :
    (Response.okRk ⟨0x1104FD81, 0x04EB4699, 0x270B1E6A, 0x14179FD8, 0x298D222E, 0x02E05865, 0x360F691E, 0x3174FC1E⟩).pack =
      0x62E9F83DB07B48F05C0B0CB4C69117282F3FB13858F3509D68D328827EC08000000000000000 := by decide +kernel

/-! ## One step of each operation -/

/-- 3.1: under I1 `sbox x=0x1F` and `sbox x=0x3F` both give 0x1C. -/
theorem test_sbox_reads_five_bits :
    lastResponse (exec (.sbox 0x1F) stateI1) = some (.ok1 (.w5 0x1C)) ∧
      lastResponse (exec (.sbox 0x3F) stateI1) = some (.ok1 (.w5 0x1C)) := by decide +kernel

/-- 3.2: bit 4 wraps to bit 0; `x[5]` is ignored. -/
theorem test_rot5_wraps :
    lastResponse (exec (.rot5 0x10 0x1) stateI1) = some (.ok1 (.w5 0x1)) ∧
      lastResponse (exec (.rot5 0x25 0x1) stateI1) = some (.ok1 (.w5 0xA)) := by decide +kernel

/-- 3.2: 5 is out of range, 4 is in range. -/
theorem test_rot5_range :
    lastResponse (exec (.rot5 0x1 0x5) stateI1) = some (.err .rotRange) ∧
      lastResponse (exec (.rot5 0x1 0x4) stateI1) = some (.ok1 (.w5 0x10)) := by decide +kernel

/-- 3.3: rotate left by one hex digit. -/
theorem test_rot60_one_digit :
    lastResponse (exec (.rot60 0x123456789ABCDEF 0x4) stateI1) = some (.ok1 (.w60 0x23456789ABCDEF1)) := by
  decide +kernel

/-- 3.3, 3.12: 60 is out of range, 59 is in range. -/
theorem test_rot60_range :
    lastResponse (exec (.rot60 0x1 0x3C) stateI1) = some (.err .rotRange) ∧
      lastResponse (exec (.rot60 0x1 0x3B) stateI1) = some (.ok1 (.w60 0x800000000000000)) := by decide +kernel

/-- 3.4. -/
theorem test_g : lastResponse (exec (.g 0x13 0xABCDEF) stateI1) = some (.ok1 (.w5 0x1C)) := by decide +kernel

/-- 3.4: `key[29:25]` is ignored. -/
theorem test_g_ignores_high_key :
    lastResponse (exec (.g 0x15 0x3FFFFFFF) stateI1) = some (.ok1 (.w5 0x1D)) := by decide +kernel

/-- 3.5: the row x = 0x155 and the row x = 0x7FF, whose bit 10 is ignored. -/
theorem test_round :
    lastResponse (exec (.round 0x155 0x15555555) stateI1) = some (.ok1 (.w10 0x263)) ∧
      lastResponse (exec (.round 0x7FF 0x3FFFFFFF) stateI1) = some (.ok1 (.w10 0x3E3)) := by decide +kernel

/-- 3.5: the same rows for ROUND.F. -/
theorem test_roundF :
    lastResponse (exec (.roundF 0x155 0x15555555) stateI1) = some (.ok1 (.w10 0x73)) ∧
      lastResponse (exec (.roundF 0x7FF 0x3FFFFFFF) stateI1) = some (.ok1 (.w10 0x7F)) := by decide +kernel

/-- 3.6: both orders. -/
theorem test_expand :
    lastResponse (exec (.expand 0x123456789ABC) stateI1) = some (.ok1 (.w60 0x08864298E84A96C)) ∧
      lastResponse (exec (.expand 0x123456789ABC) stateReverse) = some (.ok1 (.w60 0x62D4941CC520C41)) := by
  decide +kernel

/-- 3.7. -/
theorem test_subwords :
    lastResponse (exec (.subwords 0x123456789ABCDEF) stateI1) = some (.ok1 (.w60 0x8EF26BD7F92218C)) := by
  decide +kernel

/-- 3.8. -/
theorem test_sigma :
    lastResponse (exec (.sigma 0x123456789ABCDEF) stateI1) = some (.ok1 (.w60 0x6BAB9CFC3CF4D56)) := by decide +kernel

/-- 3.9: the direction of `PERM` (the reverse reading gives 0x80000000000 for 0x2). -/
theorem test_permbits :
    lastResponse (exec (.permbits 0x2) stateI1) = some (.ok1 (.w60 0x80)) ∧
      lastResponse (exec (.permbits 0x123456789ABCDEF) stateI1) = some (.ok1 (.w60 0xD5B3F790C6A6E81)) := by
  decide +kernel

/-- 3.10: the intermediate words of W1 under I1. -/
theorem test_schedule_words :
    scheduleWords sboxI1 permI1 .preserve 0x7D907FC2789D 0xBF6867B5EE98D17 0x91DB14BD40976C4 0xA1B81946E5682B0
        0x28FF19D89275CAC =
      ⟨0x13AD1A65104FD81, 0x897BA7CB73172EA, 0x505E7F6270B1E6A, 0xDB425E10537A7CD, 0x97775038E38CC5D,
        0x0B81619698D222E, 0x1B144DB51B6C66D, 0xC5D3F07B60F691E⟩ := by decide +kernel

/-- 3.10: the round keys of W1 under I0. -/
theorem test_schedule :
    lastResponse (exec (.schedule 0x7D907FC2789D 0x28FF19D89275CAC 0xA1B81946E5682B0 0x91DB14BD40976C4
        0xBF6867B5EE98D17) stateI0) =
      some (.okRk ⟨0x1104FD81, 0x04EB4699, 0x04339A97, 0x11E77B51, 0x103AEC53, 0x3591BE7E, 0x0EFCF0B6, 0x09DC1F6E⟩) := by
  decide +kernel

/-- 3.11: the round states with all inputs 0 under I1. -/
theorem test_round_states :
    roundSequence sboxI1 (scheduleKeys sboxI1 permI1 .preserve 0 0 0 0 0) 0 =
      ⟨0x000, 0x003, 0x063, 0x0EF, 0x293, 0x274, 0x023, 0x130, 0x110⟩ := by decide +kernel

/-- 3.11: W1 under I1, in a build without the test view too. -/
theorem test_encrypt :
    lastResponse (exec (.encrypt 0x8 0x7D907FC2789D 0x28FF19D89275CAC 0xA1B81946E5682B0 0x91DB14BD40976C4
        0xBF6867B5EE98D17) statePublic) = some (.ok1 (.w10 0x245)) := by decide +kernel

/-- 3.12. -/
theorem test_reserved : lastResponse (exec (.reserved 0xC) stateI1) = some (.err .reservedOp) := by decide +kernel

/-- R64: in a build without the test view `op` 0x5 is answered as a reserved selector. -/
theorem test_no_test_view : lastResponse (exec (.sbox 0x1) statePublic) = some (.err .reservedOp) := by decide +kernel

/-! ## The step -/

/-- The step after placing SBOX 1 answers it: 3.13's packed response under I1 is `y` = 0xA. -/
theorem test_step_runs_the_placed_word :
    lastResponse (step (stateI1.withFetchWord 398
      0x4000000000000000000000000000000000000000000000000000000000000000000000000005)) = some (.ok1 (.w5 0xA)) := by
  decide +kernel

/-- R230: with `MAX_OUTSTANDING` = 2 and two requests pending, a third waits. -/
theorem test_full_queue_holds :
    ({ stateI1 with pending := [sboxRequest, sboxRequest], offered := [sboxRequest] }).acceptOldest.pending.length = 2 := by
  decide +kernel

/-- Program P4, steps 1 to 4 and 6, as a run: the errors leave no trace. -/
theorem test_program_P4 :
    (match core.run 5 { stateI1 with pending :=
        [Request.ofSelector 0xC, { Request.ofSelector 0x6 with x := 0x1, r := 0x5 },
          { Request.ofSelector 0x7 with x := 0x1, r := 0x3C }, { Request.ofSelector 0x6 with x := 0x1, r := 0x4 },
          { Request.ofSelector 0x5 with x := 0x1F }] } with
      | .next t => t.delivered.map fun d => d.resp
      | .fault _ => []
      | .refused _ => []) =
      [.err .reservedOp, .err .rotRange, .err .rotRange, .ok1 (.w5 0x10), .ok1 (.w5 0x1C)] := by decide +kernel

/-- R72's example, and the text of its response. -/
theorem test_assemble : assemble "rot5 x=0x0b, r=3".toList = some { Request.ofSelector 0x6 with x := 0xB, r := 0x3 } := by
  decide +kernel

theorem test_unknown_mnemonic_is_refused : assemble "decrypt pt=1".toList = none := by decide +kernel

/-! ## Witnesses: the hypotheses of each statement can be met, clause by clause where there are several -/

theorem witness_EncodedBytesDecodeToTheInstruction : (Instr.reserved 0xC).wellFormed = true := rfl

theorem witness_ByteSerialisationLayout : (List.replicate 50 (0xFF : Byte)).length = 50 := by decide

/-- For each row of R62's table two different requests that agree on what the operation reads. -/
theorem witness_AnOperationReadsOnlyItsOperands :
    SameOperands { Request.ofSelector 0x0 with x := 0x1 } (Request.ofSelector 0x0) ∧
      SameOperands { Request.ofSelector 0x1 with pt := 0x1 } (Request.ofSelector 0x1) ∧
      SameOperands { Request.ofSelector 0x2 with x := 0x400 } (Request.ofSelector 0x2) ∧
      SameOperands { Request.ofSelector 0x3 with x := 0x400 } (Request.ofSelector 0x3) ∧
      SameOperands { Request.ofSelector 0x4 with x := 0x20, key := 0x2000000 } (Request.ofSelector 0x4) ∧
      SameOperands { Request.ofSelector 0x5 with x := 0x20 } (Request.ofSelector 0x5) ∧
      SameOperands { Request.ofSelector 0x6 with x := 0x20 } (Request.ofSelector 0x6) ∧
      SameOperands { Request.ofSelector 0x7 with key := 0x1 } (Request.ofSelector 0x7) ∧
      SameOperands { Request.ofSelector 0x8 with k0 := 0x1 } (Request.ofSelector 0x8) ∧
      SameOperands { Request.ofSelector 0x9 with k0 := 0x1 } (Request.ofSelector 0x9) ∧
      SameOperands { Request.ofSelector 0xA with k0 := 0x1 } (Request.ofSelector 0xA) ∧
      SameOperands { Request.ofSelector 0xB with k0 := 0x1 } (Request.ofSelector 0xB) ∧
      SameOperands { Request.ofSelector 0xF with x := 0x1, r := 0x3F } (Request.ofSelector 0xF) := by
  simp [SameOperands, Request.ofSelector]

theorem witness_NarrowReadsIgnoreHighBits :
    (0x3F : Word60).toNat % 2 ^ 5 = (0x1F : Word60).toNat % 2 ^ 5 ∧
      (0x3FFFFFFF : RoundKey).toNat % 2 ^ 25 = (0x1FFFFFF : RoundKey).toNat % 2 ^ 25 ∧
      (0x7FF : Word60).toNat % 2 ^ 10 = (0x3FF : Word60).toNat % 2 ^ 10 ∧ stateI1.build.testView = true ∧
      5 ≤ (0x5 : Amount).toNat ∧ 60 ≤ (0x3C : Amount).toNat := by decide +kernel

theorem witness_SboxAnswersTheTableEntry : (Request.ofSelector 0x5).op = 0x5 ∧ stateI1.build.testView = true := ⟨rfl, rfl⟩

theorem witness_Rot5RotatesOrReportsTheRange :
    (Request.ofSelector 0x6).op = 0x6 ∧ stateI1.build.testView = true ∧ (0x0 : Amount).toNat ≤ 4 ∧
      (0x4 : Amount).toNat ≤ 4 ∧ 5 ≤ (0x5 : Amount).toNat ∧ 5 ≤ (0x3F : Amount).toNat := by decide +kernel

theorem witness_Rot60RotatesOrReportsTheRange :
    (Request.ofSelector 0x7).op = 0x7 ∧ stateI1.build.testView = true ∧ (0x0 : Amount).toNat ≤ 59 ∧
      (0x3B : Amount).toNat ≤ 59 ∧ 60 ≤ (0x3C : Amount).toNat ∧ 60 ≤ (0x3F : Amount).toNat := by decide +kernel

theorem witness_SboxAfterResetIsABijection : (0 : Fin 32) ≠ 31 := by decide

theorem witness_PermAfterResetIsABijection : (0 : Fin 60) ≠ 59 := by decide

theorem witness_GMixesTheKeyFragments : (Request.ofSelector 0x4).op = 0x4 ∧ stateI1.build.testView = true := ⟨rfl, rfl⟩

theorem witness_RoundAnswersTheNonFinalRound : (Request.ofSelector 0x2).op = 0x2 ∧ stateI1.build.testView = true :=
  ⟨rfl, rfl⟩

theorem witness_RoundFAnswersTheFinalRound : (Request.ofSelector 0x3).op = 0x3 ∧ stateI1.build.testView = true :=
  ⟨rfl, rfl⟩

/-- I1's S-box is bijective, and `23 (v - 3) mod 32` is its inverse. -/
theorem witness_RoundsAreInvertible :
    sboxI1.Bijective ∧ ∀ v : Half, (fun u : Half => 23 * (u - 3)) (readSbox sboxI1 v) = v := by decide +kernel

theorem witness_ExpandPutsEachNibbleInItsSlot :
    (Request.ofSelector 0x8).op = 0x8 ∧ stateI1.build.testView = true ∧ stateI1.build.expandOrder = .preserve ∧
      stateReverse.build.testView = true ∧ stateReverse.build.expandOrder = .reverse := ⟨rfl, rfl, rfl, rfl, rfl⟩

theorem witness_SubwordsSubstitutesEachSlot : (Request.ofSelector 0x9).op = 0x9 ∧ stateI1.build.testView = true :=
  ⟨rfl, rfl⟩

theorem witness_SigmaXorsSevenRotations : (Request.ofSelector 0xA).op = 0xA ∧ stateI1.build.testView = true := ⟨rfl, rfl⟩

theorem witness_PermbitsMovesEachBit :
    (Request.ofSelector 0xB).op = 0xB ∧ stateI1.build.testView = true ∧ stateI1.perm.Bijective := by decide +kernel

theorem witness_LayersAreBijectiveAndLinear : sboxI1.Bijective ∧ permI1.Bijective := by decide +kernel

theorem witness_ScheduleAnswersTheHalvesOfItsWords :
    (Request.ofSelector 0x1).op = 0x1 ∧ stateI1.build.testView = true := ⟨rfl, rfl⟩

theorem witness_EveryTweakBitReachesTheFirstRoundKeys : (0x7D907FC2789D : Tweak) ≠ 0x7D907FC2789C := by decide +kernel

theorem witness_EachKeyWordReachesItsRoundKeys :
    (0x0 : Word60) ≠ 0x800000000000000 ∧ sboxI1.Bijective ∧ permI1.Bijective := by decide +kernel

theorem witness_EncryptRunsEightRounds : (Request.ofSelector 0x0).op = 0x0 := rfl

theorem witness_EncryptIsABijectionOnBlocks :
    sboxI1.Bijective ∧ ∀ v : Half, (fun u : Half => 23 * (u - 3)) (readSbox sboxI1 v) = v := by decide +kernel

theorem witness_EncryptionRebuiltFromTheTestView : stateI1.build.testView = true := rfl

/-- Two states that differ in their queue, in what they delivered and in their latencies. -/
theorem witness_ResponseIsAFunctionOfTheRequest :
    let s : State := { stateI1 with pending := [sboxRequest], build := { stateI1.build with maxOutstanding := 7 } }
    s ≠ stateI1 ∧ s.sbox = stateI1.sbox ∧ s.perm = stateI1.perm ∧ s.build.expandOrder = stateI1.build.expandOrder ∧
      s.build.testView = stateI1.build.testView :=
  ⟨fun h => absurd (congrArg State.pending h) (by decide +kernel), rfl, rfl, rfl, rfl⟩

theorem witness_ReservedSelectorsAnswerReservedOp :
    12 ≤ (Request.ofSelector 0xC).op.toNat ∧ 12 ≤ (Request.ofSelector 0xF).op.toNat ∧
      statePublic.build.testView = false ∧ (Instr.permbits 0x0).selector ≠ 0x0 := by decide +kernel

theorem witness_AnErrorLeavesNoTrace :
    let d : Delivery := { resp := .err .reservedOp, latency := 13 }
    exec (decodeRequest (Request.ofSelector 0xC)) stateI1 = .next { stateI1 with delivered := [d] } ∧
      [d] = stateI1.delivered ++ [d] ∧ d.resp = .err .reservedOp := ⟨rfl, rfl, rfl⟩

theorem witness_EveryInstructionOnlyDeliversOneResponse :
    exec (.sbox 0x1) stateI1 = .next (stateI1.deliver 0x5 (.ok1 (.w5 (substitute sboxI1 0x1)))) := rfl

theorem witness_LatencyDependsOnTheSelectorAlone : sboxRequest.op = (Request.ofSelector 0x5).op := rfl

theorem witness_ResetHoldsTheInterface :
    ({ stateI1 with resetIn := true, offered := [sboxRequest] }).resetIn = true ∧
      ({ stateI1 with moves := [.assertReset] }).moves = .assertReset :: [] ∧
      ({ stateI1 with resetIn := true, moves := [.deassertReset] }).moves = .deassertReset :: [] ∧
      ({ stateI1 with moves := [.powerOn] }).moves = .powerOn :: [] := ⟨rfl, rfl, rfl, rfl⟩

/-- With `MAX_OUTSTANDING` = 2: one pending leaves a place, two pending leave none. -/
theorem witness_AcceptJoinsTheTailOrHolds :
    let s : State := { stateI1 with pending := [sboxRequest], offered := [sboxRequest], moves := [.accept] }
    let full : State := { s with pending := [sboxRequest, sboxRequest] }
    s.resetIn = false ∧ s.offered = sboxRequest :: [] ∧ s.moves = .accept :: [] ∧
      s.pending.length < s.build.maxOutstanding ∧ full.resetIn = false ∧ full.offered = sboxRequest :: [] ∧
      full.moves = .accept :: [] ∧ full.build.maxOutstanding ≤ full.pending.length := by decide +kernel

theorem witness_ANonEmptyQueueIsAnswered :
    let s : State := { stateI1 with pending := [sboxRequest, sboxRequest] }
    s.resetIn = false ∧ s.pending = sboxRequest :: [sboxRequest] ∧ s.moves = [] := ⟨rfl, rfl, rfl⟩

theorem witness_WakingAnIdleCoreChangesNothing :
    Idle { stateI1 with moves := [.wake] } ∧ ({ stateI1 with moves := [.wake] }).moves = .wake :: [] := ⟨rfl, rfl⟩

theorem witness_StepRunsTheDecodedRequest :
    let s : State := { stateI1 with pending := [sboxRequest] }
    let chosen : State := { s with moves := [.respond] }
    s.resetIn = false ∧ s.pending = sboxRequest :: [] ∧ s.moves = [] ∧ chosen.resetIn = false ∧
      chosen.pending = sboxRequest :: [] ∧ chosen.moves = .respond :: [] := ⟨rfl, rfl, rfl, rfl, rfl, rfl⟩

/-- A state with a full queue satisfies the invariant, and its step answers a next state. -/
theorem witness_StepKeepsTheInvariant :
    Inv { stateI1 with pending := [sboxRequest, sboxRequest] } ∧
      step { stateI1 with pending := [sboxRequest, sboxRequest] } =
        .next ({ stateI1 with pending := [sboxRequest] }.deliver 0x5 (.ok1 (.w5 (substitute sboxI1 0x1)))) :=
  ⟨⟨test_I1_is_a_legal_instance, by decide +kernel, fun _ => by contradiction⟩, rfl⟩

theorem witness_NoStepWritesATable : step { stateI1 with moves := [.assertReset] } = .next { stateI1 with resetIn := true } :=
  rfl

theorem witness_StepKeepsTheResponseStream :
    (∀ m rest, [Move.send sboxRequest, .wake] = m :: rest → m.resets = false) ∧
      step { stateI1 with moves := [.send sboxRequest, .wake] } =
        .next { stateI1 with offered := [sboxRequest], moves := [.wake] } :=
  ⟨fun _ _ h => by cases h; rfl, rfl⟩

/-- Three moves: the host presents a request, the core accepts it, the core answers it. -/
theorem witness_EndedRunDeliveredTheResponseStream :
    let s : State := { stateI1 with moves := [.send sboxRequest, .accept, .respond] }
    let t : State := stateI1.deliver 0x5 (.ok1 (.w5 (substitute sboxI1 0x1)))
    NoReset s.moves ∧ core.run 3 s = .next t ∧ RunEnded t := by
  refine ⟨?_, rfl, rfl, rfl, rfl⟩
  intro m hm
  simp at hm
  rcases hm with rfl | rfl | rfl <;> rfl

theorem witness_CoreAloneEndsItsRun :
    let s : State := { stateI1 with pending := [sboxRequest], offered := [sboxRequest, sboxRequest] }
    s.build.Legal ∧ s.resetIn = false ∧ s.moves = [] := ⟨by decide +kernel, rfl, rfl⟩

end Sys2Proof.Tests
end

