-- ==== Sys2Proof/Proofs/Invariant.lean ====
section
/-! PROOFS. The invariant `Inv`: it holds after reset (O46), and every step keeps it (O47). Each update of the state keeps it
on its own; what a move or a step does to it follows from the case lemmas of Laws/. -/

namespace Sys2Proof.Machine

section tables

/-- The S-box ROM of the hardware is a bijection, for the permutation it is written out from is one (R101). -/
theorem sboxRom_bijective : Config.sboxRom.Bijective := by
  intro a b h
  have hw : BitVec.ofFin a = BitVec.ofFin b := Config.sbox.injective (by simpa [Config.sboxRom] using h)
  exact congrArg BitVec.toFin hw

/-- The permutation ROM of the hardware is a bijection, for the permutation it is written out from is one (R25). -/
theorem permRom_bijective : Config.permRom.Bijective := by
  intro a b h
  exact Config.perm.injective (by simpa [Config.permRom] using h)

/-- The hardware is a legal build (R6). -/
theorem wellFormedBuild_config : WellFormedBuild Config.sboxRom Config.permRom Config.build :=
  ⟨sboxRom_bijective, permRom_bijective, Config.maxOutstanding.pos⟩

end tables

section updates

variable {s : State}

/-- An empty queue is enough: whatever the reset input is, a legal build satisfies the invariant. -/
theorem inv_of_pending_nil (h : WellFormedBuild s.sbox s.perm s.build) (hp : s.pending = []) : Inv s where
  wellFormedBuild := h
  queueFits := by simp [hp]
  quietInReset _ := hp

/-- Neither the list of moves nor what the host presents matters to the invariant. -/
theorem Inv.withMoves (h : Inv s) (moves : List Move) : Inv (s.withMoves moves) :=
  ⟨h.wellFormedBuild, h.queueFits, h.quietInReset⟩

theorem Inv.present (h : Inv s) (q : Request) : Inv (s.present q) :=
  ⟨h.wellFormedBuild, h.queueFits, h.quietInReset⟩

theorem Inv.flush (h : Inv s) : Inv s.flush :=
  inv_of_pending_nil h.wellFormedBuild rfl

/-- Driving the reset input keeps the invariant because the queue empties with it, at either level (log entries 10 and 22). -/
theorem Inv.flush_withResetIn (h : Inv s) (level : Bool) : Inv (s.withResetIn level).flush :=
  inv_of_pending_nil h.wellFormedBuild rfl

/-- The queue grows only where it has a place and reset is not asserted (R31, R220, R230). -/
theorem Inv.acceptOldest (h : Inv s) : Inv s.acceptOldest := by
  obtain ⟨q, rest, hcan, -, hacc⟩ | hacc := s.acceptOldest_cases
  · obtain ⟨hreset, hplace⟩ := s.canAccept_iff.mp hcan
    rw [hacc]
    exact {
      wellFormedBuild := h.wellFormedBuild
      queueFits := by simpa using hplace
      quietInReset := by simp [hreset] }
  · rwa [hacc]

end updates

section moves

variable {s t : State}

/-- Answering takes a request off the queue, and only while reset is not asserted (R31, R220). -/
theorem Inv.answerHead (h : Inv s) (hs : answerHead s = .next t) : Inv t := by
  obtain ⟨hwait, -⟩ | ⟨q, rest, hreset, hpending, hanswer⟩ := answerHead_cases s
  · cases hwait.symm.trans hs
    exact h
  · cases hanswer.symm.trans hs
    have hfits : rest.length + 1 ≤ s.build.maxOutstanding := by simpa [hpending] using h.queueFits
    exact {
      wellFormedBuild := h.wellFormedBuild
      queueFits := Nat.le_of_succ_le hfits
      quietInReset := by simp [hreset] }

theorem Inv.coreAlone (h : Inv s) (hs : coreAlone s = .next t) : Inv t := by
  obtain ⟨hanswer, -⟩ | ⟨haccept, -⟩ := coreAlone_cases s
  · exact h.answerHead (hanswer ▸ hs)
  · cases haccept.symm.trans hs
    exact h.acceptOldest

theorem Inv.makeMove (h : Inv s) (m : Move) (hs : makeMove m s = .next t) : Inv t := by
  cases m with
  | send q => cases hs; exact h.present q
  | assertReset => cases hs; exact h.flush_withResetIn true
  | deassertReset => cases hs; exact h.flush_withResetIn false
  | powerOn => cases hs; exact h.flush
  | wake => cases hs; exact h.flush
  | accept => cases hs; exact h.acceptOldest
  | respond => exact h.answerHead hs

theorem Inv.step (h : Inv s) (hs : step s = .next t) : Inv t := by
  obtain ⟨-, halone⟩ | ⟨m, rest, -, hmove⟩ := step_cases s
  · exact h.coreAlone (halone ▸ hs)
  · exact (h.withMoves rest).makeMove m (hmove ▸ hs)

end moves

/-- Settles O46: the tables and parameters are legal by the types of the opaque constants, and the queue is empty. -/
theorem resetSatisfiesTheInvariant : Obligations.ResetSatisfiesTheInvariant :=
  inv_of_pending_nil wellFormedBuild_config rfl

/-- Settles O47: every update a step can make keeps the invariant. -/
theorem stepKeepsTheInvariant : Obligations.StepKeepsTheInvariant :=
  fun _ _ h hs => h.step hs

end Sys2Proof.Machine
end

section
/-! PROOFS. The state and its frame (spec/10_state.md): what an instruction, a move and a step change and what they leave
alone, and the response stream that every step without reset keeps (O50). -/

namespace Sys2Proof.Machine

/-! ## What a response depends on -/

/-- The same tables and build parameters: nothing the core holds that a response or a latency depends on (R24 to R26). -/
abbrev SameTables (s t : State) : Prop := t.sbox = s.sbox ∧ t.perm = s.perm ∧ t.build = s.build

section responses

variable {s t : State}

/-- R28, R173, with R64 for the test view. -/
theorem responseTo_congr (hsbox : t.sbox = s.sbox) (hperm : t.perm = s.perm)
    (horder : t.build.expandOrder = s.build.expandOrder) (hview : t.build.testView = s.build.testView) :
    t.responseTo = s.responseTo := by
  funext i
  simp only [State.responseTo, hsbox, hperm, horder, hview]

theorem deliveryFor_congr (h : SameTables s t) : t.deliveryFor = s.deliveryFor := by
  obtain ⟨hsbox, hperm, hbuild⟩ := h
  have hresp : t.responseTo = s.responseTo := responseTo_congr hsbox hperm (by rw [hbuild]) (by rw [hbuild])
  funext q
  simp only [State.deliveryFor, hresp, hbuild]

/-- `exec_eq_deliver` for a decoded request: the selector is the request's own (R60, R64). -/
theorem exec_decodeRequest_eq_deliver (q : Request) (s : State) :
    exec (decodeRequest q) s = .next (s.deliver q.op (s.responseTo (decodeRequest q))) := by
  rw [exec_eq_deliver, selector_decodeRequest]

end responses

/-! ## No update writes a table -/

section tables

variable {s t : State}

theorem answerHead_sameTables (hs : answerHead s = .next t) : SameTables s t := by
  obtain ⟨hwait, -⟩ | ⟨q, rest, -, -, hanswer⟩ := answerHead_cases s
  · cases hwait.symm.trans hs
    exact ⟨rfl, rfl, rfl⟩
  · cases hanswer.symm.trans hs
    exact ⟨rfl, rfl, rfl⟩

theorem acceptOldest_sameTables (s : State) : SameTables s s.acceptOldest :=
  ⟨s.acceptOldest_sbox, s.acceptOldest_perm, s.acceptOldest_build⟩

theorem coreAlone_sameTables (hs : coreAlone s = .next t) : SameTables s t := by
  obtain ⟨hanswer, -⟩ | ⟨haccept, -⟩ := coreAlone_cases s
  · exact answerHead_sameTables (hanswer ▸ hs)
  · cases haccept.symm.trans hs
    exact acceptOldest_sameTables s

/-- Every move, the three resets and waking included, leaves the tables alone (R24 to R26). -/
theorem makeMove_sameTables (m : Move) (hs : makeMove m s = .next t) : SameTables s t := by
  cases m with
  | send q => cases hs; exact ⟨rfl, rfl, rfl⟩
  | assertReset => cases hs; exact ⟨rfl, rfl, rfl⟩
  | deassertReset => cases hs; exact ⟨rfl, rfl, rfl⟩
  | powerOn => cases hs; exact ⟨rfl, rfl, rfl⟩
  | wake => cases hs; exact ⟨rfl, rfl, rfl⟩
  | accept => cases hs; exact acceptOldest_sameTables s
  | respond => exact answerHead_sameTables hs

theorem step_sameTables (hs : step s = .next t) : SameTables s t := by
  obtain ⟨-, halone⟩ | ⟨m, rest, -, hmove⟩ := step_cases s
  · exact coreAlone_sameTables (halone ▸ hs)
  · exact makeMove_sameTables (s := s.withMoves rest) m (hmove ▸ hs)

end tables

/-! ## The response stream -/

section stream

variable {s t : State}

/-- Where the oldest requests on their way have been answered, in order and under the same tables, the stream of responses
delivered and promised is what it was (R31, R46). -/
theorem responseStream_eq_of_answered (answered : List Request) (htables : SameTables s t)
    (hdelivered : t.delivered = s.delivered ++ answered.map s.deliveryFor)
    (hrequests : s.requestStream = answered ++ t.requestStream) : t.responseStream = s.responseStream := by
  calc t.delivered ++ t.requestStream.map t.deliveryFor
      = s.delivered ++ answered.map s.deliveryFor ++ t.requestStream.map s.deliveryFor := by
        rw [hdelivered, deliveryFor_congr htables]
    _ = s.delivered ++ (answered ++ t.requestStream).map s.deliveryFor := by
        rw [List.map_append, List.append_assoc]
    _ = s.delivered ++ s.requestStream.map s.deliveryFor := by rw [hrequests]

/-- Accepting moves the boundary between the queue and the requests presented, and no request (R31). -/
theorem acceptOldest_requestStream (s : State) : s.acceptOldest.requestStream = s.requestStream := by
  obtain ⟨q, rest, -, hoffered, hacc⟩ | hacc := s.acceptOldest_cases
  · simp [hacc, State.requestStream, hoffered]
  · rw [hacc]

theorem acceptOldest_responseStream (s : State) : s.acceptOldest.responseStream = s.responseStream :=
  responseStream_eq_of_answered [] (acceptOldest_sameTables s) (by simp) (acceptOldest_requestStream s).symm

/-- Answering turns the promise of the head's response into its delivery (R30, R31). -/
theorem answerHead_responseStream (hs : answerHead s = .next t) : t.responseStream = s.responseStream := by
  have htables : SameTables s t := answerHead_sameTables hs
  obtain ⟨hwait, -⟩ | ⟨q, rest, -, hpending, hanswer⟩ := answerHead_cases s
  · cases hwait.symm.trans hs
    rfl
  · cases hanswer.symm.trans hs
    exact responseStream_eq_of_answered [q] htables rfl (by simp [State.requestStream, hpending])

theorem coreAlone_responseStream (hs : coreAlone s = .next t) : t.responseStream = s.responseStream := by
  obtain ⟨hanswer, -⟩ | ⟨haccept, -⟩ := coreAlone_cases s
  · exact answerHead_responseStream (hanswer ▸ hs)
  · cases haccept.symm.trans hs
    exact acceptOldest_responseStream s

/-- Striking a move that presents no request off the list loses no request. -/
theorem withMoves_responseStream {rest : List Move} (h : sentBy s.moves = sentBy rest) :
    (s.withMoves rest).responseStream = s.responseStream :=
  responseStream_eq_of_answered [] ⟨rfl, rfl, rfl⟩ (by simp) (by simp [State.requestStream, h])

/-- The request a `send` presents was the next one still to be presented (R227). -/
theorem present_responseStream {q : Request} {rest : List Move} (h : s.moves = .send q :: rest) :
    ((s.withMoves rest).present q).responseStream = s.responseStream :=
  responseStream_eq_of_answered [] ⟨rfl, rfl, rfl⟩ (by simp) (by simp [State.requestStream, h, sentBy])

theorem makeMove_responseStream {m : Move} {rest : List Move} (hm : s.moves = m :: rest) (hreset : m.resets = false)
    (hs : makeMove m (s.withMoves rest) = .next t) : t.responseStream = s.responseStream := by
  have hsent : sentBy s.moves = sentBy (m :: rest) := by rw [hm]
  cases m with
  | send q => cases hs; exact present_responseStream hm
  | assertReset => cases hreset
  | deassertReset => cases hreset
  | powerOn => cases hreset
  | wake => cases hreset
  | accept =>
    cases hs
    exact (acceptOldest_responseStream _).trans (withMoves_responseStream hsent)
  | respond => exact (answerHead_responseStream hs).trans (withMoves_responseStream hsent)

end stream

/-! ## What a step is, by the state it starts from -/

section steps

variable {s : State}

theorem step_of_moves_nil (h : s.moves = []) : step s = coreAlone s := by
  simp only [step, h]

theorem step_of_moves_cons {m : Move} {rest : List Move} (h : s.moves = m :: rest) :
    step s = makeMove m (s.withMoves rest) := by
  simp only [step, h]

theorem coreAlone_of_pending_cons {q : Request} {queue : List Request} (h : s.pending = q :: queue) :
    coreAlone s = answerHead s := by
  simp only [coreAlone, h]

theorem coreAlone_of_pending_nil (h : s.pending = []) : coreAlone s = .next s.acceptOldest := by
  simp only [coreAlone, h]

/-- R30, R31: with reset released, the head of the queue is run, and it has left the queue. -/
theorem answerHead_of_pending_cons {q : Request} {queue : List Request} (hreset : s.resetIn = false)
    (h : s.pending = q :: queue) : answerHead s = exec (decodeRequest q) (s.withPending queue) := by
  simp only [answerHead, hreset, h, Bool.false_eq_true, if_false]

theorem acceptOldest_of_offered_nil (h : s.offered = []) : s.acceptOldest = s := by
  simp only [State.acceptOldest, h]

/-- R31: with a place in the queue the oldest presented request joins its tail. -/
theorem acceptOldest_of_place {q : Request} {rest : List Request} (hoffered : s.offered = q :: rest)
    (hreset : s.resetIn = false) (hplace : s.pending.length < s.build.maxOutstanding) :
    s.acceptOldest = { s with pending := s.pending ++ [q], offered := rest } := by
  simp only [State.acceptOldest, hoffered, s.canAccept_iff.mpr ⟨hreset, hplace⟩, if_true]

/-- R230: a full queue is a hold, not an error. -/
theorem acceptOldest_of_full (hfull : s.build.maxOutstanding ≤ s.pending.length) : s.acceptOldest = s := by
  obtain ⟨q, rest, hcan, -, -⟩ | hacc := s.acceptOldest_cases
  · obtain ⟨-, hplace⟩ := s.canAccept_iff.mp hcan
    exact absurd hplace (Nat.not_lt.mpr hfull)
  · exact hacc

/-- R222: with no move to make and no request anywhere, the core waits. -/
theorem step_of_no_request (hmoves : s.moves = []) (hpending : s.pending = []) (hoffered : s.offered = []) :
    step s = .next s := by
  rw [step_of_moves_nil hmoves, coreAlone_of_pending_nil hpending, acceptOldest_of_offered_nil hoffered]

end steps

/-! ## The ROMs after reset -/

section roms

/-- The S-box ROM is the parameter `SBOX` written out (R24, R41). -/
theorem readSbox_sboxRom (v : Half) : readSbox Config.sboxRom v = Config.sbox v := by
  simp [readSbox, Config.sboxRom]

/-- The permutation ROM is the parameter `PERM` written out (R25, R41). -/
theorem readPerm_permRom (i : Fin 60) : readPerm Config.permRom i = Config.perm i := by
  simp [readPerm, Config.permRom]

/-- Every bit position occurs, for the parameter is a permutation (R25). -/
theorem permRom_surjective (j : Fin 60) : ∃ i : Fin 60, Config.permRom[i] = j :=
  ⟨Config.perm.symm j, (readPerm_permRom _).trans (Config.perm.apply_symm_apply j)⟩

end roms

/-! ## The obligations -/

/-- Settles O50: a move keeps the stream unless it resets, and so does the core left to itself. -/
theorem stepKeepsTheResponseStream : Obligations.StepKeepsTheResponseStream := by
  intro s t hreset hs
  obtain ⟨-, halone⟩ | ⟨m, rest, hm, hmove⟩ := step_cases s
  · exact coreAlone_responseStream (halone ▸ hs)
  · exact makeMove_responseStream hm (hreset m rest hm) (hmove ▸ hs)

/-- Settles O33: the response is `State.responseTo`, which reads nothing but these four. -/
theorem responseIsAFunctionOfTheRequest : Obligations.ResponseIsAFunctionOfTheRequest := by
  intro q s s' hsbox hperm horder hview
  refine ⟨s.responseTo (decodeRequest q), exec_decodeRequest_eq_deliver q s, ?_⟩
  rw [responseTo_congr hsbox hperm horder hview]
  exact exec_decodeRequest_eq_deliver q s'

/-- Settles O37: an instruction is the delivery of its response, and a delivery changes `delivered` alone. -/
theorem everyInstructionOnlyDeliversOneResponse : Obligations.EveryInstructionOnlyDeliversOneResponse := by
  intro i s t hs
  cases (exec_eq_deliver i s).symm.trans hs
  exact ⟨rfl, rfl, rfl, rfl, rfl, rfl, rfl, _, s.deliver_delivered _ _⟩

/-- Settles O41: the move `accept` is `State.acceptOldest`, with and without a place in the queue. -/
theorem acceptJoinsTheTailOrHolds : Obligations.AcceptJoinsTheTailOrHolds := by
  intro s q rest moves hreset hoffered hmoves
  rw [step_of_moves_cons hmoves]
  constructor
  · intro hplace
    exact congrArg Host.Outcome.next (acceptOldest_of_place (s := s.withMoves moves) hoffered hreset hplace)
  · intro hfull
    exact congrArg Host.Outcome.next (acceptOldest_of_full (s := s.withMoves moves) hfull)

/-- Settles O48: no move and no step of the core alone writes a table. -/
theorem noStepWritesATable : Obligations.NoStepWritesATable :=
  fun _ _ hs => step_sameTables hs

/-- Settles O16: the table is a permutation written out. -/
theorem permAfterResetIsABijection : Obligations.PermAfterResetIsABijection :=
  ⟨fun a b hne heq => hne (permRom_bijective a b heq), permRom_surjective⟩

/-- Settles O39: the ROMs are the parameters written out, and there is no request and no move to make. -/
theorem stateAfterReset : Obligations.StateAfterReset :=
  ⟨rfl, readSbox_sboxRom, readPerm_permRom, step_of_no_request rfl rfl rfl⟩

/-- Settles O44: chosen to answer or left to itself, the core runs the head of its queue. -/
theorem stepRunsTheDecodedRequest : Obligations.StepRunsTheDecodedRequest := by
  intro s q queue hreset hpending
  constructor
  · intro hmoves
    rw [step_of_moves_nil hmoves, coreAlone_of_pending_cons hpending]
    exact answerHead_of_pending_cons hreset hpending
  · intro rest hmoves
    rw [step_of_moves_cons hmoves]
    exact answerHead_of_pending_cons (s := s.withMoves rest) hreset hpending

/-- Settles O45: the placed word is the head of the queue and `respond` the first move, so it is O44's step. -/
theorem stepRunsThePlacedWord : Obligations.StepRunsThePlacedWord :=
  fun s nbits w => (stepRunsTheDecodedRequest (s.withFetchWord nbits w) _ s.pending.tail rfl rfl).2 s.moves rfl

end Sys2Proof.Machine
end

section
/-! PROOFS. Runs (spec/20_memory.md rule R46): what every step keeps, every run keeps, and so a run without resets that has
ended delivered its whole response stream (O51). -/

namespace Sys2Proof.Machine

/-! ## A step strikes the move it makes off the list -/

section moves

variable {s t : State}

theorem answerHead_moves (hs : answerHead s = .next t) : t.moves = s.moves := by
  obtain ⟨hwait, -⟩ | ⟨q, rest, -, -, hanswer⟩ := answerHead_cases s
  · cases hwait.symm.trans hs
    rfl
  · cases hanswer.symm.trans hs
    rfl

theorem coreAlone_moves (hs : coreAlone s = .next t) : t.moves = s.moves := by
  obtain ⟨hanswer, -⟩ | ⟨haccept, -⟩ := coreAlone_cases s
  · exact answerHead_moves (hanswer ▸ hs)
  · cases haccept.symm.trans hs
    exact s.acceptOldest_moves

/-- No move, once made, puts another on the list. -/
theorem makeMove_moves (m : Move) (hs : makeMove m s = .next t) : t.moves = s.moves := by
  cases m with
  | send q => cases hs; rfl
  | assertReset => cases hs; rfl
  | deassertReset => cases hs; rfl
  | powerOn => cases hs; rfl
  | wake => cases hs; rfl
  | accept => cases hs; exact s.acceptOldest_moves
  | respond => exact answerHead_moves hs

theorem step_moves (hs : step s = .next t) : t.moves = s.moves.tail := by
  obtain ⟨hnil, halone⟩ | ⟨m, rest, hm, hmove⟩ := step_cases s
  · simp [coreAlone_moves (halone ▸ hs), hnil]
  · simp [makeMove_moves m (hmove ▸ hs), hm]

theorem step_noReset (h : NoReset s.moves) (hs : step s = .next t) : NoReset t.moves := by
  intro m hm
  rw [step_moves hs] at hm
  exact h m (List.mem_of_mem_tail hm)

end moves

/-! ## Runs -/

section runs

variable {s t : State}

/-- A run that answers a next state was not cut short: its first step answered one, and the run went on from there. -/
theorem run_succ_cases {n : Nat} (hr : core.run (n + 1) s = .next t) :
    ∃ u, step s = .next u ∧ core.run n u = .next t := by
  cases hs : core.step s with
  | next u => exact ⟨u, hs, by simpa only [Host.Core.run, hs] using hr⟩
  | fault r => simp only [Host.Core.run, hs, reduceCtorEq] at hr
  | refused r => simp only [Host.Core.run, hs, reduceCtorEq] at hr

/-- What holds of the first state and is kept by every step holds of the last state of a run. -/
theorem run_induction {P : State → Prop} (hkeep : ∀ u v, P u → step u = .next v → P v) (n : Nat) (hP : P s)
    (hr : core.run n s = .next t) : P t := by
  induction n generalizing s with
  | zero => cases hr; exact hP
  | succ n ih =>
    obtain ⟨u, hu, hrest⟩ := run_succ_cases hr
    exact ih (hkeep s u hP hu) hrest

/-- A run without resets keeps the response stream, by O50 for each of its steps. -/
theorem run_responseStream (n : Nat) (hreset : NoReset s.moves) (hr : core.run n s = .next t) :
    t.responseStream = s.responseStream := by
  have hkeep : ∀ u v, NoReset u.moves ∧ u.responseStream = s.responseStream → step u = .next v →
      NoReset v.moves ∧ v.responseStream = s.responseStream := by
    rintro u v ⟨hnone, hstream⟩ hs
    have hfirst : ∀ m rest, u.moves = m :: rest → m.resets = false := fun m rest hm => hnone m (by simp [hm])
    exact ⟨step_noReset hnone hs, (stepKeepsTheResponseStream u v hfirst hs).trans hstream⟩
  exact (run_induction hkeep n ⟨hreset, rfl⟩ hr).2

/-- With no request left on its way, the response stream is what was delivered. -/
theorem responseStream_of_runEnded (h : RunEnded s) : s.responseStream = s.delivered := by
  obtain ⟨hpending, hoffered, hsent⟩ := h
  simp [State.responseStream, State.requestStream, hpending, hoffered, hsent]

end runs

/-- Settles O51: the run kept the stream, and at its end the stream has all been delivered. -/
theorem endedRunDeliveredTheResponseStream : Obligations.EndedRunDeliveredTheResponseStream :=
  fun n _ _ hreset hr hended => (responseStream_of_runEnded hended).symm.trans (run_responseStream n hreset hr)

end Sys2Proof.Machine
end

section
/-! PROOFS. The encoding of requests and responses (spec/30_encoding.md): the fields of the packed words, their bytes,
and what the decoder reads back from them. Each layout is read off the bit lemmas of Laws/. -/

namespace Sys2Proof

/-- A field of a word is the value whose bits stand there. -/
theorem extractLsb'_eq_of_getLsbD {w len start : Nat} {v : BitVec w} {field : BitVec len}
    (h : ∀ i < len, v.getLsbD (start + i) = field.getLsbD i) : v.extractLsb' start len = field := by
  apply BitVec.eq_of_getLsbD_eq
  intro i hi
  rw [BitVec.getLsbD_extractLsb', decide_eq_true hi, Bool.true_and, h i hi]

/-! ## The fields of a packed request word (R67) -/

section pack

variable (q : Request)

/-- No field of a request is lost in its packed word: each is read back at its bits. -/
@[simp] theorem unpack_pack : Request.unpack q.pack = q := by
  cases q
  simp only [Request.unpack, Request.mk.injEq]
  refine ⟨?_, ?_, ?_, ?_, ?_, ?_, ?_, ?_, ?_, ?_⟩
  all_goals
    refine extractLsb'_eq_of_getLsbD fun i hi => ?_
    simp (disch := omega) only [getLsbD_pack, if_pos, if_neg, Nat.zero_add, Nat.add_sub_cancel_left]

/-- The packed word has no bit outside its fields: neighbouring fields join, from bit 0 to bit 397. -/
@[simp] theorem pack_unpack (w : RequestWord) : (Request.unpack w).pack = w := by
  simp only [Request.pack, Request.unpack, BitVec.extractLsb'_append_extractLsb'_eq_extractLsb']
  exact BitVec.extractLsb'_eq_self

@[simp] theorem decodeWord_pack : decodeWord q.pack = decodeRequest q := by
  rw [decodeWord, unpack_pack]

/-- The decoder's selector is `req[3:0]`. -/
theorem selector_decodeWord (w : RequestWord) : (decodeWord w).selector = w.extractLsb' 0 4 :=
  Machine.selector_decodeRequest (Request.unpack w)

end pack

/-! ## Bytes (R68) -/

section bytes

/-- Byte `b` of a word holds the bits from `8b` up; those past the word's end are 0. -/
theorem getLsbD_byte {n : Nat} (v : BitVec n) (b i : Nat) (hi : i < 8) :
    (v.extractLsb' (8 * b) 8).getLsbD i = if 8 * b + i < n then v.getLsbD (8 * b + i) else false := by
  rw [BitVec.getLsbD_extractLsb', decide_eq_true hi, Bool.true_and]
  split
  · rfl
  · exact BitVec.getLsbD_of_ge _ _ (by omega)

theorem getElem?_wordToBytes (w : RequestWord) {b : Nat} (hb : b < 50) :
    (wordToBytes w)[b]? = some (w.extractLsb' (8 * b) 8) := by
  simp [wordToBytes, requestBytes, hb]

/-- Each of the 398 bits stands in one of 50 bytes; bits 398 and 399 of the bytes are not read. -/
theorem getLsbD_bytesToWord_of_getElem? {bs : List Byte} {byte : Byte} {k : Nat} (hk : k < 398)
    (hbyte : bs[k / 8]? = some byte) : (bytesToWord bs).getLsbD k = byte.getLsbD (k % 8) := by
  rw [getLsbD_bytesToWord, decide_eq_true hk, Bool.true_and, hbyte, Option.getD_some]

/-- A request word is read back from its bytes. -/
@[simp] theorem bytesToWord_wordToBytes (w : RequestWord) : bytesToWord (wordToBytes w) = w := by
  apply BitVec.eq_of_getLsbD_eq
  intro k hk
  rw [getLsbD_bytesToWord_of_getElem? hk (getElem?_wordToBytes w (by omega)), getLsbD_byte _ _ _ (by omega),
    Nat.div_add_mod, if_pos hk]

theorem decodeBytes_of_length_lt {bs : List Byte} (h : bs.length < 50) :
    decodeBytes bs = .error (.incompleteRequest bs.length) :=
  if_pos h

/-- R71: a request takes 50 bytes, whatever they hold. -/
theorem decodeBytes_of_le_length {bs : List Byte} (h : 50 ≤ bs.length) :
    decodeBytes bs = .ok (decodeWord (bytesToWord (bs.take 50)), bs.drop 50) :=
  if_neg (Nat.not_lt.mpr h)

/-- The bytes of a word at the head of a stream decode as the word does, and the rest of the stream is left. -/
theorem decodeBytes_wordToBytes_append (w : RequestWord) (rest : List Byte) :
    decodeBytes (wordToBytes w ++ rest) = .ok (decodeWord w, rest) := by
  have hlen := length_wordToBytes w
  rw [decodeBytes_of_le_length (by simp), List.take_left' hlen, List.drop_left' hlen, bytesToWord_wordToBytes]

end bytes

/-! ## The decoder (R64, R65, R70) -/

section decoder

/-- R65: `op` 0xC to 0xF selects the reserved row. -/
theorem decodeRequest_of_reserved {q : Request} (h : 12 ≤ q.op.toNat) : decodeRequest q = .reserved q.op := by
  unfold decodeRequest
  split
  case h_13 => rfl
  all_goals omega

/-- R70: every request decodes to a well-formed instruction, for only a selector from 0xC up is decoded as reserved. -/
theorem wellFormed_decodeRequest (q : Request) : (decodeRequest q).wellFormed = true := by
  unfold decodeRequest
  split
  case h_13 => exact decide_eq_true (by grind)
  all_goals rfl

/-- R71: a well-formed instruction's selector meets the match and mask of its own row and of no other. -/
theorem rowsOf_selector {i : Instr} (h : i.wellFormed = true) : rowsOf i.selector = [i.mnemonic] := by
  have hreserved : ∀ op : Selector, 12 ≤ op.toNat → rowsOf op = ["RESERVED"] := by decide
  cases i
  case reserved op => exact hreserved op (of_decide_eq_true h)
  all_goals
    simp only [Instr.selector, Instr.mnemonic]
    decide

/-- The request of an instruction decodes to it, constructor by constructor (Laws/PerInstr.lean). -/
theorem decodeRequest_encodeRequest {i : Instr} (h : i.wellFormed = true) : decodeRequest (encodeRequest i) = i :=
  match i with
  | .encrypt pt tweak k0 k1 k2 k3 => Laws.RequestRoundTrip.encrypt pt tweak k0 k1 k2 k3 h
  | .schedule tweak k0 k1 k2 k3 => Laws.RequestRoundTrip.schedule tweak k0 k1 k2 k3 h
  | .round x key => Laws.RequestRoundTrip.round x key h
  | .roundF x key => Laws.RequestRoundTrip.roundF x key h
  | .g x key => Laws.RequestRoundTrip.g x key h
  | .sbox x => Laws.RequestRoundTrip.sbox x h
  | .rot5 x r => Laws.RequestRoundTrip.rot5 x r h
  | .rot60 x r => Laws.RequestRoundTrip.rot60 x r h
  | .expand tweak => Laws.RequestRoundTrip.expand tweak h
  | .subwords x => Laws.RequestRoundTrip.subwords x h
  | .sigma x => Laws.RequestRoundTrip.sigma x h
  | .permbits x => Laws.RequestRoundTrip.permbits x h
  | .reserved op => Laws.RequestRoundTrip.reserved op h

end decoder

end Sys2Proof

namespace Sys2Proof.Machine

/-! ## The fields of a packed response word (R69) -/

section responsePack

variable (p : Response)

theorem extractLsb'_responsePack_err : p.pack.extractLsb' 0 1 = p.errBit :=
  extractLsb'_eq_of_getLsbD fun i hi => by rw [Nat.zero_add, getLsbD_responsePack, if_pos hi]

theorem extractLsb'_responsePack_cause : p.pack.extractLsb' 1 2 = p.causeBits :=
  extractLsb'_eq_of_getLsbD fun i hi => by
    simp (disch := omega) only [getLsbD_responsePack, if_pos, if_neg, Nat.add_sub_cancel_left]

theorem extractLsb'_responsePack_y : p.pack.extractLsb' 3 60 = p.yBits :=
  extractLsb'_eq_of_getLsbD fun i hi => by
    simp (disch := omega) only [getLsbD_responsePack, if_pos, if_neg, Nat.add_sub_cancel_left]

/-- The round-key fields stand side by side from bit 63 up. -/
theorem extractLsb'_responsePack_rk (start len : Nat) :
    p.pack.extractLsb' (63 + start) len = p.rkBits.extractLsb' start len :=
  extractLsb'_eq_of_getLsbD fun i hi => by
    rw [BitVec.getLsbD_extractLsb', decide_eq_true hi, Bool.true_and]
    simp (disch := omega) only [getLsbD_responsePack, if_neg, Nat.add_assoc, Nat.add_sub_cancel_left]

end responsePack

/-- Round key `i` stands at bits `30i` to `30i+29` of the eight. -/
theorem extractLsb'_roundKeysPack (k : RoundKeys) :
    k.pack.extractLsb' 0 30 = k.rk0 ∧ k.pack.extractLsb' 30 30 = k.rk1 ∧ k.pack.extractLsb' 60 30 = k.rk2 ∧
      k.pack.extractLsb' 90 30 = k.rk3 ∧ k.pack.extractLsb' 120 30 = k.rk4 ∧ k.pack.extractLsb' 150 30 = k.rk5 ∧
      k.pack.extractLsb' 180 30 = k.rk6 ∧ k.pack.extractLsb' 210 30 = k.rk7 := by
  refine ⟨?_, ?_, ?_, ?_, ?_, ?_, ?_, ?_⟩
  all_goals
    refine extractLsb'_eq_of_getLsbD fun i hi => ?_
    simp (disch := omega) only [getLsbD_roundKeysPack, if_pos, if_neg, Nat.zero_add, Nat.add_sub_cancel_left]

section absentFields

/-- SCHEDULE's response has no `err`, `cause` or `y`. -/
theorem extractLsb'_responsePack_okRk_low (k : RoundKeys) : (Response.okRk k).pack.extractLsb' 0 63 = 0 :=
  extractLsb'_eq_of_getLsbD fun i hi => by
    simp [getLsbD_responsePack, Response.errBit, Response.causeBits, Response.yBits, hi]

/-- An error response has neither `y` nor round keys. -/
theorem extractLsb'_responsePack_err_high (c : ErrCause) : (Response.err c).pack.extractLsb' 3 300 = 0 :=
  extractLsb'_eq_of_getLsbD fun i _ => by
    simp [getLsbD_responsePack, Response.yBits, Response.rkBits]

end absentFields

/-- A packed response has 38 bytes (R68). -/
@[simp] theorem length_toBytes (p : Response) : p.toBytes.length = 38 := by
  simp [Response.toBytes, responseBytes]

theorem getElem?_toBytes (p : Response) {b : Nat} (hb : b < 38) :
    p.toBytes[b]? = some (p.pack.extractLsb' (8 * b) 8) := by
  simp [Response.toBytes, responseBytes, hb]

/-! ## The obligations -/

/-- Settles O1: the bytes give the packed word back, the word its request, and the request its instruction. -/
theorem encodedBytesDecodeToTheInstruction : Obligations.EncodedBytesDecodeToTheInstruction := by
  intro i rest h
  rw [encodeBytes, decodeBytes_wordToBytes_append, encodeWord, decodeWord_pack, decodeRequest_encodeRequest h]

/-- Settles O2: every field is read back at its bits, and packing what was read gives the word. -/
theorem packedRequestWordLayout : Obligations.PackedRequestWordLayout := by
  refine ⟨fun q => ?_, decodeWord_pack, fun w => ⟨pack_unpack w, selector_decodeWord w⟩⟩
  have h : Request.unpack q.pack = q := unpack_pack q
  exact ⟨congrArg Request.op h, congrArg Request.pt h, congrArg Request.tweak h, congrArg Request.k0 h,
    congrArg Request.k1 h, congrArg Request.k2 h, congrArg Request.k3 h, congrArg Request.x h,
    congrArg Request.key h, congrArg Request.r h⟩

/-- Settles O3: byte `b` is the part of the word from bit `8b` up, and reading finds each bit there again. -/
theorem byteSerialisationLayout : Obligations.ByteSerialisationLayout := by
  refine ⟨fun w => ⟨length_wordToBytes w, fun b i => ?_⟩, fun bs hlen k => ?_,
    fun p => ⟨length_toBytes p, fun b i => ?_⟩⟩
  · exact ⟨_, getElem?_wordToBytes w b.isLt, getLsbD_byte w b i i.isLt⟩
  · have hbyte : bs[k.val / 8]? = some bs[k.val / 8] := List.getElem?_eq_getElem (by omega)
    exact ⟨_, hbyte, getLsbD_bytesToWord_of_getElem? k.isLt hbyte⟩
  · exact ⟨_, getElem?_toBytes p b.isLt, getLsbD_byte p.pack b i i.isLt⟩

/-- Settles O4: the decoded instruction is well-formed, so its selector `req[3:0]` meets its own row alone. -/
theorem decodingIsTotalAndUnambiguous : Obligations.DecodingIsTotalAndUnambiguous := by
  constructor
  · intro w
    have hwf : (decodeWord w).wellFormed = true := wellFormed_decodeRequest (Request.unpack w)
    exact ⟨selector_decodeWord w ▸ rowsOf_selector hwf, hwf⟩
  · intro bs
    constructor
    · rintro ⟨i, rest, hdecode⟩
      by_contra hshort
      rw [decodeBytes_of_length_lt (Nat.lt_of_not_le hshort)] at hdecode
      cases hdecode
    · exact fun hlen => ⟨_, _, decodeBytes_of_le_length hlen⟩

/-- Settles O7: each field of the packed word is the response's own, and those its kind lacks are 0. -/
theorem packedResponseWordLayout : Obligations.PackedResponseWordLayout := by
  refine ⟨fun y => ?_, fun k => ?_, fun c => ?_⟩
  · have hy : (Response.ok1 y).pack.extractLsb' 3 60 = y.extended := extractLsb'_responsePack_y _
    rw [hy]
    refine ⟨extractLsb'_responsePack_err _, extractLsb'_responsePack_cause _, ?_, ?_, ?_,
      (extractLsb'_responsePack_rk _ 0 240).trans BitVec.extractLsb'_eq_self⟩
    · rintro v rfl
      exact BitVec.toNat_setWidth_of_le (by decide)
    · rintro v rfl
      exact BitVec.toNat_setWidth_of_le (by decide)
    · rintro v rfl
      rfl
  · have hrk : ∀ start, (Response.okRk k).pack.extractLsb' (63 + start) 30 = k.pack.extractLsb' start 30 :=
      fun start => extractLsb'_responsePack_rk _ start 30
    obtain ⟨h0, h1, h2, h3, h4, h5, h6, h7⟩ := extractLsb'_roundKeysPack k
    exact ⟨extractLsb'_responsePack_okRk_low k, (hrk 0).trans h0, (hrk 30).trans h1, (hrk 60).trans h2,
      (hrk 90).trans h3, (hrk 120).trans h4, (hrk 150).trans h5, (hrk 180).trans h6, (hrk 210).trans h7⟩
  · exact ⟨extractLsb'_responsePack_err _, extractLsb'_responsePack_cause _, extractLsb'_responsePack_err_high c⟩

end Sys2Proof.Machine
end

section
/-! PROOFS. What a request is answered by, field by field (spec/30_encoding.md rules R62, R65, R66): the bits an
operation reads, the range check of a rotation amount, and the reserved selectors. -/

namespace Sys2Proof.Machine

/-! ## Narrow reads (R66) -/

section narrow

/-- The low bits of a field are its value modulo a power of two. -/
theorem extractLsb'_zero_eq_of_mod_eq {w len : Nat} {v v' : BitVec w} (h : v.toNat % 2 ^ len = v'.toNat % 2 ^ len) :
    v.extractLsb' 0 len = v'.extractLsb' 0 len :=
  BitVec.eq_of_toNat_eq (by simpa using h)

variable {x x' : Word60} {key key' : RoundKey} (s : State)

theorem exec_sbox_congr (hx : lowHalf x = lowHalf x') : exec (.sbox x) s = exec (.sbox x') s := by
  simp only [exec, execSbox, sboxResponse, hx]

theorem exec_rot5_congr (hx : lowHalf x = lowHalf x') (r : Amount) : exec (.rot5 x r) s = exec (.rot5 x' r) s := by
  simp only [exec, execRot5, rot5Response, hx]

theorem exec_g_congr (hx : lowHalf x = lowHalf x') (hkey : subKey0 key = subKey0 key') :
    exec (.g x key) s = exec (.g x' key') s := by
  simp only [exec, execG, gResponse, hx, hkey]

theorem exec_round_congr (hx : lowBlock x = lowBlock x') (key : RoundKey) :
    exec (.round x key) s = exec (.round x' key) s := by
  simp only [exec, execRound, roundResponse, hx]

theorem exec_roundF_congr (hx : lowBlock x = lowBlock x') (key : RoundKey) :
    exec (.roundF x key) s = exec (.roundF x' key) s := by
  simp only [exec, execRoundF, roundFResponse, hx]

end narrow

/-! ## The range check of the rotation amount (R66, R202) -/

section range

variable (x : Word60) {r : Amount} {s : State}

theorem rot5Response_of_out_of_range (h : 5 ≤ r.toNat) : rot5Response x r = .err .rotRange := by
  have hnone : amount5? r = none := dif_neg (Nat.not_lt.mpr h)
  rw [rot5Response, hnone, raiseErr]

theorem rot60Response_of_out_of_range (h : 60 ≤ r.toNat) : rot60Response x r = .err .rotRange := by
  have hnone : amount60? r = none := dif_neg (Nat.not_lt.mpr h)
  rw [rot60Response, hnone, raiseErr]

/-- With the test view built in, a test-view operation answers the response it computes (R64). -/
theorem answerTestView_of_testView (op : Selector) (p : Response) (h : s.build.testView = true) :
    answerTestView op p s = .next (s.deliver op p) := by
  rw [answerTestView, respond, if_pos h]

theorem exec_rot5_of_out_of_range (hview : s.build.testView = true) (h : 5 ≤ r.toNat) :
    exec (.rot5 x r) s = .next (s.deliver 0x6 (.err .rotRange)) := by
  rw [← rot5Response_of_out_of_range x h]
  exact answerTestView_of_testView 0x6 _ hview

theorem exec_rot60_of_out_of_range (hview : s.build.testView = true) (h : 60 ≤ r.toNat) :
    exec (.rot60 x r) s = .next (s.deliver 0x7 (.err .rotRange)) := by
  rw [← rot60Response_of_out_of_range x h]
  exact answerTestView_of_testView 0x7 _ hview

end range

/-- Without the test view, every operation but ENCRYPT has the response of a reserved selector (R64, R65). -/
theorem responseTo_of_no_testView {i : Instr} {s : State} (hview : s.build.testView = false) (hop : i.selector ≠ 0x0) :
    s.responseTo i = .err .reservedOp := by
  unfold State.responseTo
  rw [hview]
  cases i
  case encrypt => exact absurd rfl hop
  all_goals rfl

/-! ## The obligations -/

/-- Settles O5: row by row of R62's table, what the two requests share is all the operation takes. -/
theorem anOperationReadsOnlyItsOperands : Obligations.AnOperationReadsOnlyItsOperands := by
  rintro q q' s ⟨hop, hread⟩
  obtain ⟨op, pt, tweak, k0, k1, k2, k3, x, key, r⟩ := q
  obtain ⟨op', pt', tweak', k0', k1', k2', k3', x', key', r'⟩ := q'
  dsimp only at hop hread
  subst hop
  split at hread
  -- A row that reads whole fields, or none, leaves one instruction on both sides; the five narrow reads remain.
  all_goals simp only [decodeRequest, *]
  case h_3 => exact exec_round_congr s hread.1 key'
  case h_4 => exact exec_roundF_congr s hread.1 key'
  case h_5 => exact exec_g_congr s hread.1 hread.2
  case h_6 => exact exec_sbox_congr s hread
  case h_7 => exact exec_rot5_congr s hread.1 r'

/-- Settles O6: the operations take those bits by `lowHalf`, `lowBlock` and `subKey0`; the amount they compare whole. -/
theorem narrowReadsIgnoreHighBits : Obligations.NarrowReadsIgnoreHighBits := by
  intro x x' key key' r s
  refine ⟨fun h => ?_, fun h => ?_, fun hview => ?_⟩
  · have hx : lowHalf x = lowHalf x' := extractLsb'_zero_eq_of_mod_eq h
    exact ⟨exec_sbox_congr s hx, exec_rot5_congr s hx r,
      fun hkey => exec_g_congr s hx (extractLsb'_zero_eq_of_mod_eq hkey)⟩
  · have hx : lowBlock x = lowBlock x' := extractLsb'_zero_eq_of_mod_eq h
    exact ⟨exec_round_congr s hx key, exec_roundF_congr s hx key⟩
  · exact ⟨exec_rot5_of_out_of_range x hview, exec_rot60_of_out_of_range x hview⟩

/-- Settles O34: the decoder takes the reserved row, and the response is the same where the test view is not built. -/
theorem reservedSelectorsAnswerReservedOp : Obligations.ReservedSelectorsAnswerReservedOp := by
  constructor
  · exact fun q s hreserved => ⟨decodeRequest_of_reserved hreserved, exec_eq_deliver (.reserved q.op) s⟩
  · intro i s hview hop
    rw [exec_eq_deliver, responseTo_of_no_testView hview hop]

end Sys2Proof.Machine
end

section
/-! PROOFS. The examples that spec/95_test_vectors.md and spec/30_encoding.md rule R72 write out. Each is a closed fact
about the decoder or the text functions, and the kernel evaluates it. -/

namespace Sys2Proof.Machine

/-- Settles O8: one evaluation of the decoder for each word. -/
theorem packedRequestsOfTheSpecDecode : Obligations.PackedRequestsOfTheSpecDecode := by
  refine ⟨?_, ?_, ?_, ?_, ?_, ?_⟩
  all_goals decide +kernel

/-- Settles O9: one evaluation of the reader or the writer for each example. -/
theorem requestTextExamples : Obligations.RequestTextExamples := by
  refine ⟨?_, ?_, ?_, ?_, ?_⟩
  all_goals decide +kernel

end Sys2Proof.Machine
end

section
/-! PROOFS. The primitives (spec/40_primitives.md). A rotation is known by where it takes each bit, so the laws of rotate5
and of rotate60 are proved once, for any word width. -/

namespace Sys2Proof.Machine

/-! ## Rotations of a word of any width -/

/-- `rot` takes bit `i` of a word to bit `i + a`; the sum of two `Fin w` is taken mod `w`. -/
def IsRotation {w : Nat} (rot : BitVec w → Fin w → BitVec w) : Prop :=
  ∀ (v : BitVec w) (a i : Fin w), (rot v a).getLsbD (i + a).val = v.getLsbD i.val

/-- R105. -/
theorem isRotation_rotate5 : IsRotation rotate5 := by
  intro v a i
  rw [getLsbD_rotate5 v a _ (i + a).isLt, Fin.val_add]
  congr 1
  omega

/-- R110. -/
theorem isRotation_rotate60 : IsRotation rotate60 := by
  intro v a i
  rw [getLsbD_rotate60 v a _ (i + a).isLt, Fin.val_add]
  congr 1
  omega

/-- The number of 1 bits, as a count over the bit positions themselves. -/
theorem onesCount_eq_countP_finRange {w : Nat} (v : BitVec w) :
    onesCount v = (List.finRange w).countP fun i => v.getLsbD i.val := by
  rw [onesCount, ← List.map_coe_finRange_eq_range, List.countP_map]
  rfl

/-- Where the bits of a word are permuted, the number of 1 bits stays. -/
theorem onesCount_eq_of_perm {w : Nat} {u v : BitVec w} (σ : Equiv.Perm (Fin w))
    (h : ∀ i : Fin w, u.getLsbD (σ i).val = v.getLsbD i.val) : onesCount u = onesCount v := by
  calc onesCount u
      = ((List.finRange w).map σ).countP fun i => u.getLsbD i.val := by
        rw [onesCount_eq_countP_finRange, σ.map_finRange_perm.countP_eq]
    _ = (List.finRange w).countP fun i => v.getLsbD i.val := by
        rw [List.countP_map]
        exact List.countP_congr fun i _ => by rw [Function.comp_apply, h i]
    _ = onesCount v := (onesCount_eq_countP_finRange v).symm

/-- A shift by `a` reaches every position, so two words that agree at the shifted positions are one word. -/
theorem eq_of_getLsbD_add {w : Nat} [NeZero w] {u v : BitVec w} (a : Fin w)
    (h : ∀ i : Fin w, u.getLsbD (i + a).val = v.getLsbD (i + a).val) : u = v := by
  apply BitVec.eq_of_getLsbD_eq
  intro k hk
  simpa using h (⟨k, hk⟩ - a)

section laws

variable {w : Nat} [NeZero w] {rot : BitVec w → Fin w → BitVec w} (h : IsRotation rot) (u v : BitVec w) (a b : Fin w)

include h

namespace IsRotation

theorem rot_zero : rot v 0 = v :=
  eq_of_getLsbD_add 0 fun i => by rw [h, add_zero]

/-- Bit `i` goes to `i + a` and on to `(i + a) + b`. -/
theorem rot_rot : rot (rot v a) b = rot v (a + b) :=
  eq_of_getLsbD_add (a + b) fun i => by rw [h v (a + b) i, ← add_assoc, h (rot v a) b (i + a), h v a i]

theorem onesCount_rot : onesCount (rot v a) = onesCount v :=
  onesCount_eq_of_perm (Equiv.addRight a) (h v a)

/-- The inverse is the rotation by the opposite amount. -/
theorem bijective : Function.Bijective (fun u => rot u a) := by
  refine Function.bijective_iff_has_inverse.mpr ⟨fun u => rot u (-a), fun u => ?_, fun u => ?_⟩
  · simp only [h.rot_rot, add_neg_cancel, h.rot_zero]
  · simp only [h.rot_rot, neg_add_cancel, h.rot_zero]

theorem rot_xor : rot (u ^^^ v) a = rot u a ^^^ rot v a :=
  eq_of_getLsbD_add a fun i => by simp only [BitVec.getLsbD_xor, h _ a i]

theorem rot_and : rot (u &&& v) a = rot u a &&& rot v a :=
  eq_of_getLsbD_add a fun i => by simp only [BitVec.getLsbD_and, h _ a i]

end IsRotation

end laws

/-! ## The responses of the primitive operations -/

section responses

variable (x : Word60)

/-- The selector row, read off a request whose `op` is known (R70). -/
theorem decodeRequest_eq_of_op {q : Request} {op : Selector} (h : q.op = op) :
    decodeRequest q = decodeRequest { q with op := op } := by
  rw [← h]

/-- Bit `i` of `x[4:0]` is bit `i` of `x` (R62). -/
theorem getLsbD_lowHalf (i : Fin 5) : (lowHalf x).getLsbD i.val = x.getLsbD i.val := by
  rw [lowHalf, BitVec.getLsbD_extractLsb', decide_eq_true i.isLt, Bool.true_and, Nat.zero_add]

theorem toNat_lowHalf : (lowHalf x).toNat = x.toNat % 32 := by
  simp [lowHalf]

theorem rot5Response_of_in_range {r : Amount} (h : r.toNat < 5) :
    rot5Response x r = .ok1 (.w5 (rotate5 (lowHalf x) ⟨r.toNat, h⟩)) := by
  have hsome : amount5? r = some ⟨r.toNat, h⟩ := dif_pos h
  rw [rot5Response, hsome]

theorem rot60Response_of_in_range {r : Amount} (h : r.toNat < 60) :
    rot60Response x r = .ok1 (.w60 (rotate60 x ⟨r.toNat, h⟩)) := by
  have hsome : amount60? r = some ⟨r.toNat, h⟩ := dif_pos h
  rw [rot60Response, hsome]

theorem exec_rot5_of_in_range {r : Amount} {s : State} (hview : s.build.testView = true) (h : r.toNat < 5) :
    exec (.rot5 x r) s = .next (s.deliver 0x6 (.ok1 (.w5 (rotate5 (lowHalf x) ⟨r.toNat, h⟩)))) := by
  rw [← rot5Response_of_in_range x h]
  exact answerTestView_of_testView 0x6 _ hview

theorem exec_rot60_of_in_range {r : Amount} {s : State} (hview : s.build.testView = true) (h : r.toNat < 60) :
    exec (.rot60 x r) s = .next (s.deliver 0x7 (.ok1 (.w60 (rotate60 x ⟨r.toNat, h⟩)))) := by
  rw [← rot60Response_of_in_range x h]
  exact answerTestView_of_testView 0x7 _ hview

end responses

/-! ## The obligations -/

/-- Settles O11: bit `i` of the operand, which is bit `i` of `x`, is taken to bit `i + r` mod 5. -/
theorem rot5RotatesOrReportsTheRange : Obligations.Rot5RotatesOrReportsTheRange := by
  refine ⟨fun q h => decodeRequest_eq_of_op h, fun x r s hview => ⟨fun h => ?_, exec_rot5_of_out_of_range x hview⟩⟩
  have hr : r.toNat < 5 := Nat.lt_succ_of_le h
  exact ⟨_, exec_rot5_of_in_range x hview hr,
    fun i => (isRotation_rotate5 (lowHalf x) ⟨r.toNat, hr⟩ i).trans (getLsbD_lowHalf x i)⟩

/-- Settles O12: bit `i` of `x` is taken to bit `i + r` mod 60. -/
theorem rot60RotatesOrReportsTheRange : Obligations.Rot60RotatesOrReportsTheRange := by
  refine ⟨fun q h => decodeRequest_eq_of_op h, fun x r s hview => ⟨fun h => ?_, exec_rot60_of_out_of_range x hview⟩⟩
  have hr : r.toNat < 60 := Nat.lt_succ_of_le h
  exact ⟨_, exec_rot60_of_in_range x hview hr, isRotation_rotate60 x ⟨r.toNat, hr⟩⟩

/-- Settles O13: the laws hold for whatever takes each bit `i` to bit `i + a`. -/
theorem rotate5Laws : Obligations.Rotate5Laws := by
  intro v w a b
  have h : IsRotation rotate5 := isRotation_rotate5
  exact ⟨h.rot_zero v, h.rot_rot v a b, h.onesCount_rot v a, h.bijective a, h.rot_xor v w a, h.rot_and v w a⟩

/-- Settles O14: the same laws, for 60 bits. -/
theorem rotate60Laws : Obligations.Rotate60Laws := by
  intro v w a b
  have h : IsRotation rotate60 := isRotation_rotate60
  exact ⟨h.rot_zero v, h.rot_rot v a b, h.onesCount_rot v a, h.bijective a, h.rot_xor v w a⟩

/-- Settles O10: the index is `x[4:0]`, and the entry there is what is delivered. -/
theorem sboxAnswersTheTableEntry : Obligations.SboxAnswersTheTableEntry := by
  refine ⟨fun q h => decodeRequest_eq_of_op h, fun x s hview => ?_⟩
  exact ⟨(lowHalf x).toFin, _, toNat_lowHalf x, rfl, answerTestView_of_testView 0x5 (sboxResponse s.sbox x) hview⟩

/-- Settles O15: the table is a permutation written out, and the inverse permutation undoes it. -/
theorem sboxAfterResetIsABijection : Obligations.SboxAfterResetIsABijection := by
  refine ⟨fun a b hne heq => hne (sboxRom_bijective a b heq), fun v => ?_, Config.sbox.symm, fun v => ?_⟩
  · exact ⟨(Config.sbox.symm v).toFin, (readSbox_sboxRom _).trans (Config.sbox.apply_symm_apply v)⟩
  · exact (congrArg Config.sbox.symm (readSbox_sboxRom v)).trans (Config.sbox.symm_apply_apply v)

end Sys2Proof.Machine
end

section
/-! PROOFS. The mixing function and the rounds (spec/41_mixing_round.md). The key terms of G are linear in the key and in
the value, and the cross-term is all that disturbs this; a block and a round key are the concatenation of their parts;
and the half that a round passes on fixes the half it was mixed into. -/

namespace Sys2Proof.Machine

/-! ## The mixing function G -/

section mixing

theorem and_xor_distrib_left {w : Nat} (a b c : BitVec w) : a &&& (b ^^^ c) = (a &&& b) ^^^ (a &&& c) := by
  apply BitVec.eq_of_getLsbD_eq
  intro i hi
  simp only [BitVec.getLsbD_and, BitVec.getLsbD_xor, Bool.and_xor_distrib_left]

theorem xor_and_distrib_right {w : Nat} (a b c : BitVec w) : (a ^^^ b) &&& c = (a &&& c) ^^^ (b &&& c) := by
  rw [BitVec.and_comm, and_xor_distrib_left, BitVec.and_comm c a, BitVec.and_comm c b]

/-- The XOR of the five key terms of G: G without its cross-term (R121). -/
def keyTerms (v : Half) (kk : SubKey) : Half :=
  (rotate5 v 0 &&& keyFragment kk 0) ^^^ (rotate5 v 1 &&& keyFragment kk 1) ^^^ (rotate5 v 2 &&& keyFragment kk 2) ^^^
    (rotate5 v 3 &&& keyFragment kk 3) ^^^ (rotate5 v 4 &&& keyFragment kk 4)

/-- The fixed cross-term of G, which reads no key bit (R121). -/
def crossTerm (v : Half) : Half := rotate5 v 1 &&& rotate5 v 2

theorem mixG_eq (v : Half) (kk : SubKey) : mixG v kk = keyTerms v kk ^^^ crossTerm v := rfl

variable (v w : Half) (a b kk : SubKey)

theorem keyFragment_xor (i : Nat) : keyFragment (a ^^^ b) i = keyFragment a i ^^^ keyFragment b i :=
  BitVec.extractLsb'_xor

theorem keyTerms_xor_right : keyTerms v (a ^^^ b) = keyTerms v a ^^^ keyTerms v b := by
  simp only [keyTerms, keyFragment_xor, and_xor_distrib_left]
  ac_rfl

theorem keyTerms_xor_left : keyTerms (v ^^^ w) kk = keyTerms v kk ^^^ keyTerms w kk := by
  simp only [keyTerms, isRotation_rotate5.rot_xor, xor_and_distrib_right]
  ac_rfl

/-- The cross-terms of two G answers for one value cancel. -/
theorem mixG_xor_mixG : mixG v a ^^^ mixG v b = keyTerms v a ^^^ keyTerms v b := by
  calc mixG v a ^^^ mixG v b
      = keyTerms v a ^^^ keyTerms v b ^^^ (crossTerm v ^^^ crossTerm v) := by simp only [mixG_eq]; ac_rfl
    _ = keyTerms v a ^^^ keyTerms v b := by rw [BitVec.xor_self, BitVec.xor_zero]

/-- With the key 0 only the cross-term is left. -/
theorem mixG_zero_right : mixG v 0 = crossTerm v := by
  have hzero : keyTerms v 0 = 0 := by simpa using keyTerms_xor_right v 0 0
  rw [mixG_eq, hzero, zero_xor]

/-- Bit `j` of `rotate5(x[4:0], r)` is bit `j - r` of `x`, the difference taken mod 5 (R62, R105). -/
theorem getLsbD_rotate5_lowHalf (x : Word60) (r j : Fin 5) :
    (rotate5 (lowHalf x) r).getLsbD j.val = x.getLsbD ((j.val + 5 - r.val) % 5) := by
  rw [getLsbD_rotate5 _ r _ j.isLt]
  exact getLsbD_lowHalf x ⟨_, Nat.mod_lt _ (by decide)⟩

/-- Bit `j` of the fragment `k_i` of `key[24:0]` is key bit `5i + j` (R62, R121). -/
theorem getLsbD_keyFragment_subKey0 (key : RoundKey) {i : Nat} (hi : i < 5) (j : Fin 5) :
    (keyFragment (subKey0 key) i).getLsbD j.val = key.getLsbD (5 * i + j.val) := by
  have hbit : 5 * i + j.val < 25 := by omega
  simp [keyFragment, subKey0, hbit]

end mixing

/-! ## A block and a round key as numbers -/

section parts

/-- A concatenation is the number whose digit at weight `2 ^ n` is its high part. -/
theorem toNat_append_eq_add {m n : Nat} (hi : BitVec m) (lo : BitVec n) :
    (hi ++ lo).toNat = hi.toNat * 2 ^ n + lo.toNat := by
  rw [BitVec.toNat_append, ← Nat.shiftLeft_add_eq_or_of_lt lo.isLt, Nat.shiftLeft_eq]

/-- R126: a block is `(newXL << 5) | newXR`. -/
theorem toNat_joinHalves (l r : Half) : (joinHalves l r).toNat = l.toNat * 2 ^ 5 + r.toNat :=
  toNat_append_eq_add l r

/-- R126: `x[9:0] = {xL, xR}`. -/
theorem toNat_lowBlock_halves (x : Word60) :
    x.toNat % 2 ^ 10 = (leftHalf (lowBlock x)).toNat * 2 ^ 5 + (rightHalf (lowBlock x)).toNat := by
  rw [← toNat_joinHalves, joinHalves_halves, lowBlock, BitVec.extractLsb'_toNat, Nat.shiftRight_zero]

/-- R125: `key = {SK1, SK0}`. -/
theorem toNat_subKeys (key : RoundKey) : key.toNat = (subKey1 key).toNat * 2 ^ 25 + (subKey0 key).toNat := by
  have hkey : subKey1 key ++ subKey0 key = key :=
    (BitVec.extractLsb'_append_extractLsb'_eq_extractLsb' rfl).trans BitVec.extractLsb'_eq_self
  rw [← toNat_append_eq_add, hkey]

/-- A block that is fed back in the field `x` is read back whole (R62). -/
@[simp] theorem lowBlock_setWidth (x : Block) : lowBlock (x.setWidth 60) = x := by
  rw [lowBlock, BitVec.extractLsb'_setWidth_of_le (by decide), BitVec.extractLsb'_eq_self]

end parts

/-! ## The responses of the test-view operations -/

section responses

variable {s : State} (hview : s.build.testView = true) (x : Word60) (key : RoundKey)

include hview

theorem exec_g_of_testView :
    exec (.g x key) s = .next (s.deliver 0x4 (.ok1 (.w5 (mixG (lowHalf x) (subKey0 key))))) :=
  answerTestView_of_testView 0x4 _ hview

theorem exec_round_of_testView :
    exec (.round x key) s = .next (s.deliver 0x2 (.ok1 (.w10 (roundNf s.sbox (lowBlock x) key)))) :=
  answerTestView_of_testView 0x2 _ hview

theorem exec_roundF_of_testView :
    exec (.roundF x key) s = .next (s.deliver 0x3 (.ok1 (.w10 (roundFinal s.sbox (lowBlock x) key)))) :=
  answerTestView_of_testView 0x3 _ hview

theorem exec_schedule_of_testView (tweak : Tweak) (k0 k1 k2 k3 : Word60) :
    exec (.schedule tweak k0 k1 k2 k3) s =
      .next (s.deliver 0x1 (.okRk (scheduleKeys s.sbox s.perm s.build.expandOrder tweak k3 k2 k1 k0))) :=
  answerTestView_of_testView 0x1 _ hview

/-- ROUND of a block that an earlier operation answered (R127). -/
theorem exec_round_setWidth (b : Block) :
    exec (.round (b.setWidth 60) key) s = .next (s.deliver 0x2 (.ok1 (.w10 (roundNf s.sbox b key)))) := by
  rw [exec_round_of_testView hview, lowBlock_setWidth]

/-- ROUND.F of a block that an earlier operation answered (R128). -/
theorem exec_roundF_setWidth (b : Block) :
    exec (.roundF (b.setWidth 60) key) s = .next (s.deliver 0x3 (.ok1 (.w10 (roundFinal s.sbox b key)))) := by
  rw [exec_roundF_of_testView hview, lowBlock_setWidth]

end responses

/-! ## The inverse rounds (R130) -/

section inverse

/-- A bijective S-box has an inverse function (R101). -/
theorem exists_inverse_of_bijective {t : SboxRom} (ht : t.Bijective) :
    ∃ inverse : Half → Half, ∀ v, inverse (readSbox t v) = v := by
  have hinj : Function.Injective (readSbox t) := fun u v h => congrArg BitVec.ofFin (ht u.toFin v.toFin h)
  exact hinj.hasLeftInverse

variable {t : SboxRom} {inverse : Half → Half} (hinv : ∀ v, inverse (readSbox t v) = v) (key : RoundKey) (x : Block)

include hinv

theorem inverse_substitute (v : Half) : inverse (substitute t v) = v := hinv v

/-- The S-box output gives `xL` back, and with it the G output that was mixed into `xR`. -/
theorem invRoundNf_roundNf : invRoundNf inverse (roundNf t x key) key = x := by
  simp only [invRoundNf, roundNf, leftHalf_joinHalves, rightHalf_joinHalves, inverse_substitute hinv,
    xor_cancel_right, joinHalves_halves]

theorem invRoundFinal_roundFinal : invRoundFinal inverse (roundFinal t x key) key = x := by
  simp only [invRoundFinal, roundFinal, leftHalf_joinHalves, rightHalf_joinHalves, inverse_substitute hinv,
    xor_cancel_right, joinHalves_halves]

end inverse

/-- Blocks are finitely many, so the non-final round, which its inverse undoes, is onto. -/
theorem roundNf_bijective {t : SboxRom} (ht : t.Bijective) (key : RoundKey) :
    Function.Bijective fun x => roundNf t x key := by
  obtain ⟨inverse, hinv⟩ := exists_inverse_of_bijective ht
  have hleft : Function.LeftInverse (fun y => invRoundNf inverse y key) fun x => roundNf t x key :=
    invRoundNf_roundNf hinv key
  exact hleft.injective.bijective_of_finite

theorem roundFinal_bijective {t : SboxRom} (ht : t.Bijective) (key : RoundKey) :
    Function.Bijective fun x => roundFinal t x key := by
  obtain ⟨inverse, hinv⟩ := exists_inverse_of_bijective ht
  have hleft : Function.LeftInverse (fun y => invRoundFinal inverse y key) fun x => roundFinal t x key :=
    invRoundFinal_roundFinal hinv key
  exact hleft.injective.bijective_of_finite

/-! ## The obligations -/

/-- Settles O18: the key terms are linear on either side, and the three cross-terms of the first equation leave one. -/
theorem gIsAffineInTheKey : Obligations.GIsAffineInTheKey := by
  intro v w a b
  constructor
  · rw [mixG_xor_mixG, mixG_zero_right, mixG_eq, keyTerms_xor_right]
  · have hterms : ∀ u : Half, mixG u a ^^^ (rotate5 u 1 &&& rotate5 u 2) = keyTerms u a :=
      fun u => xor_cancel_right _ _
    rw [hterms, hterms, hterms, keyTerms_xor_left]

/-- Settles O17: term `i` contributes bit `j - i` of the value and bit `5i + j` of the key. -/
theorem gMixesTheKeyFragments : Obligations.GMixesTheKeyFragments := by
  refine ⟨fun q h => decodeRequest_eq_of_op h, fun x key s hview => ⟨_, exec_g_of_testView hview x key, fun j => ?_⟩⟩
  have hself : j.val % 5 = j.val := Nat.mod_eq_of_lt j.isLt
  simp only [mixG_eq, keyTerms, crossTerm, BitVec.getLsbD_xor, BitVec.getLsbD_and, getLsbD_rotate5_lowHalf,
    getLsbD_keyFragment_subKey0, Nat.reduceLT]
  simp [hself]

/-- Settles O19: the halves of `x[9:0]` and the parts of the key are those the round takes. -/
theorem roundAnswersTheNonFinalRound : Obligations.RoundAnswersTheNonFinalRound := by
  refine ⟨fun q h => decodeRequest_eq_of_op h, fun x key s hview => ?_⟩
  exact ⟨_, _, _, _, _, toNat_lowBlock_halves x, toNat_subKeys key, exec_round_of_testView hview x key,
    toNat_joinHalves _ _⟩

/-- Settles O20: the same operands, joined the other way round. -/
theorem roundFAnswersTheFinalRound : Obligations.RoundFAnswersTheFinalRound := by
  refine ⟨fun q h => decodeRequest_eq_of_op h, fun x key s hview => ?_⟩
  exact ⟨_, _, _, _, _, toNat_lowBlock_halves x, toNat_subKeys key, exec_roundF_of_testView hview x key,
    toNat_joinHalves _ _⟩

/-- Settles O21: the inverse rounds undo the rounds, whichever inverse of the S-box they are given. -/
theorem roundsAreInvertible : Obligations.RoundsAreInvertible :=
  fun _ key ht => ⟨roundNf_bijective ht key, roundFinal_bijective ht key,
    fun _ hinv x => ⟨invRoundNf_roundNf hinv key x, invRoundFinal_roundFinal hinv key x⟩⟩

/-- Settles O32: the answers are the blocks x_1 .. x_8 of the round sequence that ENCRYPT runs (R171). -/
theorem encryptionRebuiltFromTheTestView : Obligations.EncryptionRebuiltFromTheTestView := by
  intro pt tweak k0 k1 k2 k3 s hview
  let k := scheduleKeys s.sbox s.perm s.build.expandOrder tweak k3 k2 k1 k0
  let x := roundSequence s.sbox k pt
  have hround := exec_round_setWidth hview
  exact ⟨k, x.x1, x.x2, x.x3, x.x4, x.x5, x.x6, x.x7, x.x8, exec_schedule_of_testView hview tweak k0 k1 k2 k3,
    hround k.rk0 pt, hround k.rk1 x.x1, hround k.rk2 x.x2, hround k.rk3 x.x3, hround k.rk4 x.x4, hround k.rk5 x.x5,
    hround k.rk6 x.x6, exec_roundF_setWidth hview k.rk7 x.x7, rfl⟩

end Sys2Proof.Machine
end

section
/-! PROOFS. The tweak/key schedule (spec/42_schedule.md). A word is known by its slots, by its bits at the positions of
PERM, and by its two halves; so what a layer does to slots and bits gives its laws. No step from a tweak or key word to
its round keys loses anything, and so a change of the one changes the other (R153, R154). -/

namespace Sys2Proof.Machine

/-! ## expand: the slots of its word (R143) -/

section expand

variable (o : ExpandOrder)

/-- The zero extension keeps the value of the nibble (R143). -/
theorem toNat_slot_expandTweak (tweak : Tweak) {j : Nat} (hj : j < 12) :
    (slot (expandTweak o tweak) (ExpandOrder.slotOf o j)).toNat = (nibble tweak j).toNat := by
  rw [slot_expandTweak o tweak j hj, BitVec.toNat_setWidth_of_le (by decide)]

/-- Each nibble is read back from its slot, in either order. -/
theorem expandTweak_injective : Function.Injective (expandTweak o) := by
  intro a b h
  refine eq_of_nibble_eq a b fun j hj => BitVec.eq_of_toNat_eq ?_
  rw [← toNat_slot_expandTweak o a hj, h, toNat_slot_expandTweak o b hj]

end expand

/-! ## substituteWords: a bijection for a bijective S-box (R144) -/

section substitution

variable {t : SboxRom} (ht : t.Bijective)

include ht

theorem substitute_injective : Function.Injective (substitute t) := by
  obtain ⟨inverse, hinv⟩ := exists_inverse_of_bijective ht
  exact Function.LeftInverse.injective (inverse_substitute hinv)

theorem substituteWords_injective : Function.Injective (substituteWords t) := by
  intro a b h
  refine eq_of_slot_eq a b fun j hj => substitute_injective ht ?_
  rw [← slot_substituteWords t a j hj, h, slot_substituteWords t b j hj]

end substitution

/-! ## Sigma: its bits, and its linearity (R145) -/

section sigma

/-- A rotation by `r` shows at bit `i` the bit `i - r`, which is `i + (60 - r)` mod 60. -/
theorem getLsbD_sigmaLayer (v : Word60) (i : Fin 60) :
    (sigmaLayer v).getLsbD i.val =
      (v.getLsbD i.val ^^ v.getLsbD ((i.val + 54) % 60) ^^ v.getLsbD ((i.val + 48) % 60) ^^
        v.getLsbD ((i.val + 41) % 60) ^^ v.getLsbD ((i.val + 31) % 60) ^^ v.getLsbD ((i.val + 17) % 60) ^^
        v.getLsbD ((i.val + 9) % 60)) := by
  simp only [sigmaLayer, BitVec.getLsbD_xor, getLsbD_rotate60 _ _ _ i.isLt]
  rfl

theorem sigmaLayer_xor (v w : Word60) : sigmaLayer (v ^^^ w) = sigmaLayer v ^^^ sigmaLayer w := by
  simp only [sigmaLayer, isRotation_rotate60.rot_xor]
  ac_rfl

end sigma

/-! ## permuteBits: a permutation of the bit positions (R146) -/

section permutation

variable {p : PermRom} (hp : p.Bijective)

include hp

/-- R25: the 60 entries of the table are a permutation of the positions. -/
theorem exists_perm_eq_readPerm : ∃ σ : Equiv.Perm (Fin 60), ∀ i, σ i = readPerm p i := by
  have hinj : Function.Injective (readPerm p) := hp
  exact ⟨Equiv.ofBijective _ hinj.bijective_of_finite, fun _ => rfl⟩

/-- The positions of the table are all there are, so two words that agree there are one word. -/
theorem eq_of_getLsbD_readPerm {u v : Word60}
    (h : ∀ i, u.getLsbD (readPerm p i).val = v.getLsbD (readPerm p i).val) : u = v := by
  obtain ⟨σ, hσ⟩ := exists_perm_eq_readPerm hp
  apply BitVec.eq_of_getLsbD_eq
  intro k hk
  simpa [← hσ] using h (σ.symm ⟨k, hk⟩)

theorem permuteBits_injective : Function.Injective (permuteBits p) := by
  intro a b h
  apply BitVec.eq_of_getLsbD_eq
  intro k hk
  rw [← getLsbD_permuteBits p hp a ⟨k, hk⟩, h, getLsbD_permuteBits p hp b ⟨k, hk⟩]

theorem onesCount_permuteBits (w : Word60) : onesCount (permuteBits p w) = onesCount w := by
  obtain ⟨σ, hσ⟩ := exists_perm_eq_readPerm hp
  refine onesCount_eq_of_perm σ fun i => ?_
  rw [hσ, getLsbD_permuteBits p hp]

theorem permuteBits_xor (v w : Word60) : permuteBits p (v ^^^ w) = permuteBits p v ^^^ permuteBits p w :=
  eq_of_getLsbD_readPerm hp fun i => by simp only [BitVec.getLsbD_xor, getLsbD_permuteBits p hp]

end permutation

/-! ## The two round keys of a word (R151) -/

section halves

theorem highRoundKey_append_lowRoundKey (w : Word60) : highRoundKey w ++ lowRoundKey w = w :=
  (BitVec.extractLsb'_append_extractLsb'_eq_extractLsb' rfl).trans BitVec.extractLsb'_eq_self

theorem toNat_roundKeyHalves (w : Word60) :
    w.toNat = (highRoundKey w).toNat * 2 ^ 30 + (lowRoundKey w).toNat := by
  rw [← toNat_append_eq_add, highRoundKey_append_lowRoundKey]

/-- A word is given back by its pair of round keys. -/
theorem eq_of_roundKeyPair_eq {a b : Word60}
    (h : (lowRoundKey a, highRoundKey a) = (lowRoundKey b, highRoundKey b)) : a = b := by
  obtain ⟨hlow, hhigh⟩ := Prod.mk.inj h
  rw [← highRoundKey_append_lowRoundKey a, hhigh, hlow, highRoundKey_append_lowRoundKey]

end halves

/-! ## What a word of the schedule keeps of its tweak and key words (R153, R154) -/

section sensitivity

variable (t : SboxRom) (p : PermRom) (o : ExpandOrder) (tweak : Tweak) (k3 k2 k1 k0 : Word60)

theorem t1_injective_tweak : Function.Injective fun tweak => (scheduleWords t p o tweak k3 k2 k1 k0).t1 :=
  fun _ _ h => expandTweak_injective o ((BitVec.xor_left_inj _).mp h)

theorem t1_injective_k0 : Function.Injective fun k0 => (scheduleWords t p o tweak k3 k2 k1 k0).t1 :=
  fun _ _ h => (BitVec.xor_right_inj _).mp h

theorem t3_injective_k1 : Function.Injective fun k1 => (scheduleWords t p o tweak k3 k2 k1 k0).t3 :=
  fun _ _ h => (BitVec.xor_right_inj _).mp h

variable {t p}

/-- The change of T4 passes the bijections to T5 and T6. -/
theorem t6_injective_k2 (ht : t.Bijective) (hp : p.Bijective) :
    Function.Injective fun k2 => (scheduleWords t p o tweak k3 k2 k1 k0).t6 :=
  fun _ _ h => (BitVec.xor_right_inj _).mp (permuteBits_injective hp (substituteWords_injective ht h))

/-- The change of T7 passes the bijection to T8. -/
theorem t8_injective_k3 (ht : t.Bijective) :
    Function.Injective fun k3 => (scheduleWords t p o tweak k3 k2 k1 k0).t8 :=
  fun _ _ h => (BitVec.xor_right_inj _).mp (substituteWords_injective ht h)

end sensitivity

/-! ## The obligations -/

/-- Settles O22: under each order the slot is the one that nibble `j` was written to. -/
theorem expandPutsEachNibbleInItsSlot : Obligations.ExpandPutsEachNibbleInItsSlot := by
  refine ⟨fun q h => decodeRequest_eq_of_op h, fun tweak s hview =>
    ⟨_, answerTestView_of_testView 0x8 (expandResponse s.build.expandOrder tweak) hview, ?_, ?_⟩⟩
  · intro horder j
    rw [horder]
    exact toNat_slot_expandTweak .preserve tweak j.isLt
  · intro horder j
    rw [horder]
    exact toNat_slot_expandTweak .reverse tweak j.isLt

/-- Settles O23: each slot of the answer is written once, with the S-box of the same slot of `x`. -/
theorem subwordsSubstitutesEachSlot : Obligations.SubwordsSubstitutesEachSlot := by
  refine ⟨fun q h => decodeRequest_eq_of_op h, fun x s hview => ?_⟩
  exact ⟨_, answerTestView_of_testView 0x9 (subwordsResponse s.sbox x) hview,
    fun j => slot_substituteWords s.sbox x j.val j.isLt⟩

/-- Settles O24: the six rotations and the word itself contribute one bit each. -/
theorem sigmaXorsSevenRotations : Obligations.SigmaXorsSevenRotations := by
  refine ⟨fun q h => decodeRequest_eq_of_op h, fun x s hview => ?_⟩
  exact ⟨_, answerTestView_of_testView 0xA (sigmaResponse x) hview, getLsbD_sigmaLayer x⟩

/-- Settles O25: a bijective PERM writes no position twice, so what was written to `PERM[i]` stays. -/
theorem permbitsMovesEachBit : Obligations.PermbitsMovesEachBit := by
  refine ⟨fun q h => decodeRequest_eq_of_op h, fun x s hview => ?_⟩
  exact ⟨_, answerTestView_of_testView 0xB (permbitsResponse s.perm x) hview,
    fun hp => getLsbD_permuteBits s.perm hp x⟩

/-- Settles O26: the words are finitely many, so the injective layers are onto. -/
theorem layersAreBijectiveAndLinear : Obligations.LayersAreBijectiveAndLinear :=
  fun _ _ ht hp => ⟨(substituteWords_injective ht).bijective_of_finite, (permuteBits_injective hp).bijective_of_finite,
    onesCount_permuteBits hp, permuteBits_xor hp, sigmaLayer_xor⟩

/-- Settles O27: the eight words are those of `scheduleWords`, and each pair of round keys is the halves of one of them. -/
theorem scheduleAnswersTheHalvesOfItsWords : Obligations.ScheduleAnswersTheHalvesOfItsWords := by
  refine ⟨fun q h => decodeRequest_eq_of_op h, fun tweak k0 k1 k2 k3 s hview => ?_⟩
  let w := scheduleWords s.sbox s.perm s.build.expandOrder tweak k3 k2 k1 k0
  exact ⟨w.t1, w.t2, w.t3, w.t4, w.t5, w.t6, w.t7, w.t8, w.roundKeys, rfl, rfl, rfl, rfl, rfl, rfl, rfl, rfl,
    toNat_roundKeyHalves w.t1, toNat_roundKeyHalves w.t3, toNat_roundKeyHalves w.t6, toNat_roundKeyHalves w.t8,
    exec_schedule_of_testView hview tweak k0 k1 k2 k3⟩

/-- Settles O28: the pair gives T1 back, and T1 the tweak. -/
theorem everyTweakBitReachesTheFirstRoundKeys : Obligations.EveryTweakBitReachesTheFirstRoundKeys :=
  fun t p o _ _ k3 k2 k1 k0 hne hpair => hne (t1_injective_tweak t p o k3 k2 k1 k0 (eq_of_roundKeyPair_eq hpair))

/-- Settles O29: each pair gives its word back, and the word the key word. -/
theorem eachKeyWordReachesItsRoundKeys : Obligations.EachKeyWordReachesItsRoundKeys := by
  intro t p o tweak k3 k2 k1 k0 k'
  refine ⟨fun hne hpair => hne ?_, fun hne hpair => hne ?_, fun ht hp hne hpair => hne ?_,
    fun ht _ hne hpair => hne ?_⟩
  · exact t1_injective_k0 t p o tweak k3 k2 k1 (eq_of_roundKeyPair_eq hpair)
  · exact t3_injective_k1 t p o tweak k3 k2 k0 (eq_of_roundKeyPair_eq hpair)
  · exact t6_injective_k2 o tweak k3 k1 k0 ht hp (eq_of_roundKeyPair_eq hpair)
  · exact t8_injective_k3 o tweak k2 k1 k0 ht (eq_of_roundKeyPair_eq hpair)

end Sys2Proof.Machine
end

section
/-! PROOFS. The cipher (spec/43_cipher.md). ENCRYPT runs the eight rounds in order; they are undone from the last to the
first, each by its own inverse round, and so encrypt is a bijection on the blocks. The latency of a response is the
build's for the selector, whatever the operands. -/

namespace Sys2Proof.Machine

/-! ## The round keys and the round blocks, by their index -/

section indexed

/-- Round key `RK_i` (R151). -/
def RoundKeys.byRound (k : RoundKeys) : Fin 8 → RoundKey := ![k.rk0, k.rk1, k.rk2, k.rk3, k.rk4, k.rk5, k.rk6, k.rk7]

/-- Block `x_i` of the round sequence (R171). -/
def RoundBlocks.byRound (x : RoundBlocks) : Fin 9 → Block :=
  ![x.x0, x.x1, x.x2, x.x3, x.x4, x.x5, x.x6, x.x7, x.x8]

variable (t : SboxRom) (k : RoundKeys) (pt : Block)

/-- R171: rounds 0 to 6 are non-final, and round `i` takes `x_i` to `x_{i+1}` with `RK_i`. -/
theorem roundSequence_byRound_succ (i : Fin 7) :
    (roundSequence t k pt).byRound i.succ.castSucc =
      roundNf t ((roundSequence t k pt).byRound i.castSucc.castSucc) (k.byRound i.castSucc) := by
  match i with
  | 0 | 1 | 2 | 3 | 4 | 5 | 6 => rfl

/-- R171: round 7 is final, and takes `x_7` to `x_8` with `RK_7`. -/
theorem roundSequence_byRound_last :
    (roundSequence t k pt).byRound 8 = roundFinal t ((roundSequence t k pt).byRound 7) (k.byRound 7) := rfl

end indexed

/-- ENCRYPT completes in every build, and answers the last block of its round sequence (R64, R170). -/
theorem exec_encrypt (pt : Block) (tweak : Tweak) (k0 k1 k2 k3 : Word60) (s : State) :
    exec (.encrypt pt tweak k0 k1 k2 k3) s =
      .next (s.deliver 0x0 (.ok1 (.w10 (encryptBlock s.sbox s.perm s.build.expandOrder pt k3 k2 k1 k0 tweak)))) := rfl

/-! ## Decryption, for claims only (R176) -/

section inverse

variable {t : SboxRom} (p : PermRom) (o : ExpandOrder) (k3 k2 k1 k0 : Word60) (tweak : Tweak)

/-- From round 7 down to round 0, each inverse round gives back the block that its round started from. -/
theorem undoRounds_roundSequence {inverse : Half → Half} (hinv : ∀ v, inverse (readSbox t v) = v) (k : RoundKeys)
    (pt : Block) : undoRounds inverse k (roundSequence t k pt).x8 = pt := by
  simp only [undoRounds, roundSequence, invRoundFinal_roundFinal hinv, invRoundNf_roundNf hinv]

/-- Blocks are finitely many, so encrypt, which the inverse rounds undo, is onto. -/
theorem encryptBlock_bijective (ht : t.Bijective) :
    Function.Bijective fun pt => encryptBlock t p o pt k3 k2 k1 k0 tweak := by
  obtain ⟨inverse, hinv⟩ := exists_inverse_of_bijective ht
  have hleft : Function.LeftInverse (undoRounds inverse (scheduleKeys t p o tweak k3 k2 k1 k0))
      fun pt => encryptBlock t p o pt k3 k2 k1 k0 tweak :=
    undoRounds_roundSequence hinv _
  exact hleft.injective.bijective_of_finite

end inverse

/-! ## The obligations -/

/-- Settles O30: the blocks are those of the round sequence, whose last one ENCRYPT answers. -/
theorem encryptRunsEightRounds : Obligations.EncryptRunsEightRounds := by
  refine ⟨fun q h => decodeRequest_eq_of_op h, fun pt tweak k0 k1 k2 k3 s => ?_⟩
  let k := scheduleKeys s.sbox s.perm s.build.expandOrder tweak k3 k2 k1 k0
  exact ⟨k, k.byRound, (roundSequence s.sbox k pt).byRound, rfl, rfl, rfl, roundSequence_byRound_succ s.sbox k pt,
    roundSequence_byRound_last s.sbox k pt, exec_encrypt pt tweak k0 k1 k2 k3 s⟩

/-- Settles O31: the inverse rounds undo encrypt, whichever inverse of the S-box they are given. -/
theorem encryptIsABijectionOnBlocks : Obligations.EncryptIsABijectionOnBlocks :=
  fun _ p o tweak k3 k2 k1 k0 ht => ⟨encryptBlock_bijective p o k3 k2 k1 k0 tweak ht,
    fun _ hinv pt => undoRounds_roundSequence hinv _ pt⟩

/-- Settles O38: what is delivered for a request carries the latency of its selector, and the two share theirs. -/
theorem latencyDependsOnTheSelectorAlone : Obligations.LatencyDependsOnTheSelectorAlone := by
  intro q q' s hop
  refine ⟨s.responseTo (decodeRequest q), s.responseTo (decodeRequest q'), _, rfl, exec_decodeRequest q s, ?_⟩
  simp only [hop]
  exact exec_decodeRequest q' s

end Sys2Proof.Machine
end

section
/-! PROOFS. The error response (spec/60_exceptions.md): what raises it, that it leaves no trace, and that nothing stops the
machine. Waking an idle core (spec/70_reset_and_hazards.md rule R214) stands here too. -/

namespace Sys2Proof.Machine

/-! ## What raises `Err` (R202, R203) -/

section causes

theorem rot5Response_eq_err_iff (x : Word60) (r : Amount) (c : ErrCause) :
    rot5Response x r = .err c ↔ c = .rotRange ∧ 5 ≤ r.toNat := by
  by_cases h : 5 ≤ r.toNat
  · simp [rot5Response_of_out_of_range x h, h, eq_comm]
  · simp [rot5Response_of_in_range x (Nat.lt_of_not_le h), h]

theorem rot60Response_eq_err_iff (x : Word60) (r : Amount) (c : ErrCause) :
    rot60Response x r = .err c ↔ c = .rotRange ∧ 60 ≤ r.toNat := by
  by_cases h : 60 ≤ r.toNat
  · simp [rot60Response_of_out_of_range x h, h, eq_comm]
  · simp [rot60Response_of_in_range x (Nat.lt_of_not_le h), h]

variable {s : State}

/-- With the test view, the ten operations that are neither a rotation nor reserved answer `Ok1` or `OkRk` outright. -/
theorem responseTo_ne_err_of_testView (hview : s.build.testView = true) {i : Instr} (hwf : i.wellFormed = true)
    (hrot5 : i.selector ≠ 0x6) (hrot60 : i.selector ≠ 0x7) (hreserved : ¬ 12 ≤ i.selector.toNat) (c : ErrCause) :
    s.responseTo i ≠ .err c := by
  unfold State.responseTo
  rw [hview]
  cases i
  case rot5 => exact absurd rfl hrot5
  case rot60 => exact absurd rfl hrot60
  case reserved => exact absurd (of_decide_eq_true hwf) hreserved
  all_goals exact Response.noConfusion

/-- With the test view, a request is answered `Err` for a reserved selector or for a rotation amount out of range. -/
theorem responseTo_decodeRequest_eq_err_iff_of_testView (hview : s.build.testView = true) (q : Request) (c : ErrCause) :
    s.responseTo (decodeRequest q) = .err c ↔
      (c = .reservedOp ∧ 12 ≤ q.op.toNat) ∨
        (c = .rotRange ∧ ((q.op = 0x6 ∧ 5 ≤ q.r.toNat) ∨ (q.op = 0x7 ∧ 60 ≤ q.r.toNat))) := by
  by_cases h6 : q.op = 0x6#4
  · have hrow : decodeRequest q = .rot5 q.x q.r := decodeRequest_eq_of_op h6
    simp [hrow, State.responseTo, expectedResponse, hview, rot5Response_eq_err_iff, h6]
  by_cases h7 : q.op = 0x7#4
  · have hrow : decodeRequest q = .rot60 q.x q.r := decodeRequest_eq_of_op h7
    simp [hrow, State.responseTo, expectedResponse, hview, rot60Response_eq_err_iff, h7]
  by_cases hres : 12 ≤ q.op.toNat
  · simp [decodeRequest_of_reserved hres, State.responseTo, expectedResponse, h6, h7, hres, eq_comm]
  · have hok : s.responseTo (decodeRequest q) ≠ .err c := by
      rw [← selector_decodeRequest q] at h6 h7 hres
      exact responseTo_ne_err_of_testView hview (wellFormed_decodeRequest q) h6 h7 hres c
    simp [hok, h6, h7, hres]

/-- Without the test view, a request is answered `Err` for every selector but ENCRYPT's (R64, R65). -/
theorem responseTo_decodeRequest_eq_err_iff_of_no_testView (hview : s.build.testView = false) (q : Request)
    (c : ErrCause) : s.responseTo (decodeRequest q) = .err c ↔ c = .reservedOp ∧ q.op ≠ 0x0 := by
  by_cases h0 : q.op = 0x0#4
  · have hrow : decodeRequest q = .encrypt q.pt q.tweak q.k0 q.k1 q.k2 q.k3 := decodeRequest_eq_of_op h0
    simp [hrow, State.responseTo, expectedResponse, encryptResponse, h0]
  · have herr : s.responseTo (decodeRequest q) = .err .reservedOp :=
      responseTo_of_no_testView hview ((selector_decodeRequest q).symm ▸ h0)
    simpa [herr, h0] using eq_comm

/-- Whatever the response, its `cause` field is 0, 1 or 2 (R69, R202). -/
theorem causeBits_ne_three (p : Response) : p.causeBits ≠ 3 := by
  match p with
  | .ok1 _ | .okRk _ => exact (by decide : (0 : BitVec 2) ≠ 3)
  | .err .reservedOp => exact (by decide : (1 : BitVec 2) ≠ 3)
  | .err .rotRange => exact (by decide : (2 : BitVec 2) ≠ 3)

end causes

/-! ## Every step answers a next state (R200, R205) -/

section total

variable (s : State)

theorem exists_answerHead_eq_next : ∃ t, answerHead s = .next t := by
  obtain ⟨hwait, -⟩ | ⟨q, rest, -, -, hanswer⟩ := answerHead_cases s
  · exact ⟨_, hwait⟩
  · exact ⟨_, hanswer⟩

theorem exists_coreAlone_eq_next : ∃ t, coreAlone s = .next t := by
  obtain ⟨hanswer, -⟩ | ⟨haccept, -⟩ := coreAlone_cases s
  · exact hanswer ▸ exists_answerHead_eq_next s
  · exact ⟨_, haccept⟩

theorem exists_makeMove_eq_next (m : Move) : ∃ t, makeMove m s = .next t := by
  cases m
  case respond => exact exists_answerHead_eq_next s
  all_goals exact ⟨_, rfl⟩

end total

/-- A reset finds nothing to drop in an idle core (R214, R221). -/
theorem flush_of_pending_nil {s : State} (h : s.pending = []) : s.flush = s := by
  rw [State.flush, ← h]

/-! ## The obligations -/

/-- Settles O35: the response is `State.responseTo`, and each cause is read off it with and without the test view. -/
theorem errorsAreExactlyTheListedCauses : Obligations.ErrorsAreExactlyTheListedCauses := by
  refine ⟨⟨rfl, rfl, fun p => ?_⟩, fun q s => ⟨_, exec_decodeRequest_eq_deliver q s, ?_⟩⟩
  · rw [extractLsb'_responsePack_cause]
    exact causeBits_ne_three p
  · cases hview : s.build.testView with
    | true => simp [responseTo_decodeRequest_eq_err_iff_of_testView hview]
    | false =>
      have hop : q.op ≠ 0x0 ↔ 12 ≤ q.op.toNat ∨ 1 ≤ q.op.toNat := by bv_omega
      simpa [responseTo_decodeRequest_eq_err_iff_of_no_testView hview] using hop

/-- Settles O36: the delivery is the one effect, and no response depends on what was delivered before. -/
theorem anErrorLeavesNoTrace : Obligations.AnErrorLeavesNoTrace := by
  intro q q' s t d c hexec hdelivered herr
  cases (exec_decodeRequest_eq_deliver q s).symm.trans hexec
  obtain rfl : _ = d := List.singleton_inj.mp (List.append_cancel_left hdelivered)
  have hown : s.responseTo (decodeRequest q) = .err c := herr
  rw [hown]
  exact ⟨rfl, rfl, rfl, rfl, rfl, rfl, rfl, rfl, responseIsAFunctionOfTheRequest q' s _ rfl rfl rfl rfl⟩

/-- Settles O49: every move, and the core left to itself, answers a next state. -/
theorem everyStepAnswersANextState : Obligations.EveryStepAnswersANextState := by
  intro s
  obtain ⟨-, halone⟩ | ⟨m, rest, -, hmove⟩ := step_cases s
  · exact halone ▸ exists_coreAlone_eq_next s
  · exact hmove ▸ exists_makeMove_eq_next (s.withMoves rest) m

/-- Settles O43: waking empties a queue that is empty already. -/
theorem wakingAnIdleCoreChangesNothing : Obligations.WakingAnIdleCoreChangesNothing := by
  intro s rest hidle hmoves
  rw [step_of_moves_cons hmoves]
  exact congrArg Host.Outcome.next (flush_of_pending_nil (s := s.withMoves rest) hidle)

end Sys2Proof.Machine
end

section
/-! PROOFS. Reset and progress (spec/70_reset_and_hazards.md): an asserted reset holds the interface (R220, R221), and with
reset released a core left to itself answers its queue and ends its run (R225, R228, R230). -/

namespace Sys2Proof.Machine

/-! ## While reset is asserted (R220) -/

section inReset

variable {s : State}

theorem answerHead_of_reset (h : s.resetIn = true) : answerHead s = .next s := by
  simp only [answerHead, h, if_true]

theorem acceptOldest_of_reset (h : s.resetIn = true) : s.acceptOldest = s := by
  obtain ⟨q, rest, hcan, -, -⟩ | hacc := s.acceptOldest_cases
  · obtain ⟨hreleased, -⟩ := s.canAccept_iff.mp hcan
    exact absurd h (by simp [hreleased])
  · exact hacc

theorem coreAlone_of_reset (h : s.resetIn = true) : coreAlone s = .next s := by
  obtain ⟨hanswer, -⟩ | ⟨haccept, -⟩ := coreAlone_cases s
  · rw [hanswer, answerHead_of_reset h]
  · rw [haccept, acceptOldest_of_reset h]

/-- No response has left the core, and no request has joined its queue: the queue is as it was, or was emptied. -/
def Held (s t : State) : Prop := t.delivered = s.delivered ∧ (t.pending = s.pending ∨ t.pending = [])

theorem makeMove_of_reset (h : s.resetIn = true) (m : Move) : ∃ t, makeMove m s = .next t ∧ Held s t := by
  cases m with
  | send q => exact ⟨_, rfl, rfl, .inl rfl⟩
  | assertReset => exact ⟨_, rfl, rfl, .inr rfl⟩
  | deassertReset => exact ⟨_, rfl, rfl, .inr rfl⟩
  | powerOn => exact ⟨_, rfl, rfl, .inr rfl⟩
  | wake => exact ⟨_, rfl, rfl, .inr rfl⟩
  | accept => exact ⟨s, congrArg Host.Outcome.next (acceptOldest_of_reset h), rfl, .inl rfl⟩
  | respond => exact ⟨s, answerHead_of_reset h, rfl, .inl rfl⟩

theorem step_of_reset (h : s.resetIn = true) : ∃ t, step s = .next t ∧ Held s t := by
  obtain ⟨-, halone⟩ | ⟨m, rest, -, hmove⟩ := step_cases s
  · exact ⟨s, halone.trans (coreAlone_of_reset h), rfl, .inl rfl⟩
  · rw [hmove]
    exact makeMove_of_reset (s := s.withMoves rest) h m

end inReset

/-! ## A core left to itself, with reset released -/

section alone

/-- Nobody but the core will move: reset is released and no move is chosen. -/
structure LeftAlone (s : State) : Prop where
  released : s.resetIn = false
  noMove : s.moves = []

/-- What a core left to itself still has to do: answer each pending request, and accept and answer each one presented. -/
def State.stepsToEnd (s : State) : Nat := s.pending.length + 2 * s.offered.length

variable {s : State}

/-- Its step answers the head of a non-empty queue (R30, R230). -/
theorem LeftAlone.step_of_pending_cons (h : LeftAlone s) {q : Request} {queue : List Request}
    (hpending : s.pending = q :: queue) :
    step s = .next { s with pending := queue, delivered := s.delivered ++ [s.deliveryFor q] } := by
  rw [step_of_moves_nil h.noMove, coreAlone_of_pending_cons hpending,
    answerHead_of_pending_cons h.released hpending, exec_decodeRequest]
  rfl

/-- In a legal build an empty queue has a place, so its step accepts the oldest request presented (R31). -/
theorem LeftAlone.step_of_pending_nil (h : LeftAlone s) (hlegal : s.build.Legal) {q : Request} {rest : List Request}
    (hpending : s.pending = []) (hoffered : s.offered = q :: rest) :
    step s = .next { s with pending := [q], offered := rest } := by
  have hplace : s.pending.length < s.build.maxOutstanding := by rw [hpending]; exact hlegal
  rw [step_of_moves_nil h.noMove, coreAlone_of_pending_nil hpending,
    acceptOldest_of_place hoffered h.released hplace, hpending, List.nil_append]

/-- Accepting turns two steps still to make into one, and answering turns one into none. -/
theorem LeftAlone.step_stepsToEnd (h : LeftAlone s) (hlegal : s.build.Legal) {n : Nat} (hn : s.stepsToEnd = n + 1) :
    ∃ u, step s = .next u ∧ LeftAlone u ∧ u.build.Legal ∧ u.stepsToEnd = n := by
  unfold State.stepsToEnd at hn
  cases hpending : s.pending with
  | cons q queue =>
    refine ⟨_, h.step_of_pending_cons hpending, ⟨h.released, h.noMove⟩, hlegal, ?_⟩
    simp only [hpending, List.length_cons] at hn
    simp only [State.stepsToEnd]
    omega
  | nil =>
    cases hoffered : s.offered with
    | cons q rest =>
      refine ⟨_, h.step_of_pending_nil hlegal hpending hoffered, ⟨h.released, h.noMove⟩, hlegal, ?_⟩
      simp only [hpending, hoffered, List.length_cons, List.length_nil] at hn
      simp only [State.stepsToEnd, List.length_singleton]
      omega
    | nil => simp [hpending, hoffered] at hn

theorem LeftAlone.runEnded (h : LeftAlone s) (hn : s.stepsToEnd = 0) : RunEnded s := by
  have hlengths : s.pending.length = 0 ∧ s.offered.length = 0 := by
    unfold State.stepsToEnd at hn
    omega
  exact ⟨List.length_eq_zero_iff.mp hlengths.1, List.length_eq_zero_iff.mp hlengths.2, by rw [h.noMove, sentBy]⟩

theorem run_succ_of_step {u : State} (n : Nat) (hs : step s = .next u) : core.run (n + 1) s = core.run n u := by
  have hcore : core.step s = .next u := hs
  simp only [Host.Core.run, hcore]

/-- By induction on the steps still to make, each of which is one fewer. -/
theorem LeftAlone.run_ends (h : LeftAlone s) (hlegal : s.build.Legal) (n : Nat) (hn : s.stepsToEnd = n) :
    ∃ t, core.run n s = .next t ∧ RunEnded t := by
  induction n generalizing s with
  | zero => exact ⟨s, rfl, h.runEnded hn⟩
  | succ n ih =>
    obtain ⟨u, hs, halone, hlegal', hu⟩ := h.step_stepsToEnd hlegal hn
    rw [run_succ_of_step n hs]
    exact ih halone hlegal' hu

end alone

/-! ## The obligations -/

/-- Settles O40: in reset the core holds, and the moves that drive reset and power empty the queue and nothing else. -/
theorem resetHoldsTheInterface : Obligations.ResetHoldsTheInterface := by
  refine ⟨fun s h => step_of_reset h, fun s rest => ⟨fun hm => ?_, fun hm => ?_, fun hm => ?_⟩⟩
  · exact ⟨_, step_of_moves_cons hm, rfl, rfl⟩
  · exact ⟨_, step_of_moves_cons hm, rfl, rfl, rfl, rfl, rfl, rfl⟩
  · exact ⟨_, step_of_moves_cons hm, rfl, rfl, rfl, rfl, rfl⟩

/-- Settles O42: the step answers the head of the queue. -/
theorem aNonEmptyQueueIsAnswered : Obligations.ANonEmptyQueueIsAnswered :=
  fun s q _ hreset hpending hmoves =>
    ⟨_, s.deliveryFor q, LeftAlone.step_of_pending_cons ⟨hreset, hmoves⟩ hpending, rfl, rfl, rfl⟩

/-- Settles O52: every step brings the end one step nearer, and a run that ended delivered its stream (O51). -/
theorem coreAloneEndsItsRun : Obligations.CoreAloneEndsItsRun := by
  intro s hlegal hreset hmoves
  obtain ⟨t, hrun, hended⟩ := LeftAlone.run_ends ⟨hreset, hmoves⟩ hlegal _ rfl
  have hnone : NoReset s.moves := by simp [NoReset, hmoves]
  exact ⟨t, hrun, hended, endedRunDeliveredTheResponseStream _ s t hnone hrun hended⟩

end Sys2Proof.Machine
end
